-- ==== Sys2Proof/Word.lean ====
section
/-! DEFINITION. The word types of the station: bytes, numbers of the conventions table of 00_scope.md, and the
names of the ranges that index its tables. -/

namespace Sys2Proof

/-- One byte, as a bulletin, the configuration image or the maintenance window carries it. -/
abbrev Byte := BitVec 8

/-- An epoch, counted modulo 65536 (00_scope.md, "Numbering"). -/
abbrev Epoch := BitVec 16

/-- A station number, 0 to 31. -/
abbrev StationId := Fin 32

/-- A zone number, 0 to 63. -/
abbrev ZoneId := Fin 64

/-- A scenario number, 0 to 31; 0 is PRE. -/
abbrev ScenarioId := Fin 32

/-- A step number, 0 to 8; 0 stands for no step. -/
abbrev StepId := Fin 9

/-- A detection line or a command line, 0 to 7. -/
abbrev LineId := Fin 8

/-- A point of this station, 0 to 15. -/
abbrev PointId := Fin 16

/-- An override group, 0 to 15. -/
abbrev GroupId := Fin 16

/-- A set of stations, station n in bit n. -/
abbrev StationSet := BitVec 32

/-- A set of points of this station, point n in bit n. -/
abbrev PointSet := BitVec 16

/-- A set of detection lines, line n in bit n. -/
abbrev LineSet := BitVec 8

/-- A set of fault kinds, a kind in the bit of its code (R193). -/
abbrev KindSet := BitVec 24

/-- A timer: stopped, or running with the time that remains, in the unit of the timebase it counts
(ticks of 10 ms, R192, unless its field says otherwise). -/
abbrev Timer := Option Nat

end Sys2Proof
end

