-- ==== Sys2Proof/Syntax.lean ====
section
/-! DEFINITION. The commands: one constructor for each of the 59 rows of spec/opcode_table.json, with what each event
brings from outside the station as its operands. -/

namespace Sys2Proof

/-- The level of a contact input: a command line (R33), or input A or B of a point (R110). -/
inductive Level where
  | broken
  | made
deriving DecidableEq, Repr

/-- The level of the Smoke-Control Bus; dominant is a 0 bit and recessive a 1 bit (R159). -/
inductive LineLevel where
  | recessive
  | dominant
deriving DecidableEq, Repr

/-- The four bands of a supervised detection input (section 2.1, R18). -/
inductive Band where
  | quiescentBand
  | contactBand
  | openBand
  | shortBand
deriving DecidableEq, Repr

/-- The two proof inputs of a point: A is the open limit of a damper, B its shut limit (section 6.1). -/
inductive LimitInput where
  | inputA
  | inputB
deriving DecidableEq, Repr

/-- How a bulletin came into the Receive FIFO (R168). -/
inductive Origin where
  | loopback
  | received
deriving DecidableEq, Repr

/-- The number and origin a bulletin carries in the Receive FIFO (R168). -/
structure Source where
  sender : StationId
  origin : Origin
deriving DecidableEq, Repr

/-- The order in which the Presence Monitor and the block that owns the kind take one bulletin. The spec gives them
none (R66, R73; log 4). With `noticesLast` the owner goes first and the Agreement Engine takes the owner's notices
after the Presence Monitor has noted the sender. -/
inductive TakeOrder where
  | presenceFirst
  | ownerFirst
  | noticesLast
deriving DecidableEq, Repr

/-- A frame as the receiver reads it between its start bit and its last end bit (section 9.2, R160). -/
structure Frame where
  /-- The two priority bits of the contention field. -/
  cls : BitVec 2
  /-- The five station bits of the contention field. -/
  sender : StationId
  kind : BitVec 4
  length : BitVec 4
  /-- The payload bytes, byte 0 first. -/
  payload : List Byte
  /-- The sixteen check bits received. -/
  crc : BitVec 16
  /-- The seven end bits; a bit that is 0 was read dominant. -/
  endField : BitVec 7
deriving DecidableEq, Repr

/-- A fault by the code of its kind (section 9.2) and its subject. -/
structure FaultName where
  code : Byte
  subject : Byte
deriving DecidableEq, Repr

/-- What the station samples at one tick: the inputs of the points (R111, R126), and the level of the bus with the number
of bit times since its last change (R172) and the count that makes the line idle (R159); and the onsets that reach the FLU later
than the tick's other reports (R178). -/
structure TickSamples where
  inputA : Vector Level 16
  inputB : Vector Level 16
  line : LineLevel
  /-- Bit times of 16 microseconds for which the line has held its level, since its last change (R172; log 55). -/
  heldBits : Nat
  /-- Recessive bit times since the last dominant bit and the end of the last frame; none while a frame is on the line
  (R159; log 50). -/
  quietBits : Option Nat
  /-- The condition faults whose onsets stay on the way to the FLU until a later tick, so that their clears overtake them
  (R178; log 51). -/
  late : List FaultName := []
deriving DecidableEq, Repr

/-- What stands at the station when the read of the configuration memory completes: the bytes of the memory (it reads
as 255 beyond the list, R188) and the levels the blocks sample at acceptance. -/
structure StartInputs where
  memory : List Byte
  bands : Vector Band 8
  contacts : Vector Level 8
  inputA : Vector Level 16
  inputB : Vector Level 16
deriving DecidableEq, Repr

/-- A command: an event that the surroundings bring to the station. -/
inductive Instr where
  /-- Power is applied (R187). -/
  | powerOnReset
  /-- The RESET input falls (R187). -/
  | resetFallingEdge
  /-- The reset ends, and the straps stand at this number (R188). -/
  | resetEnd (straps : StationId)
  /-- The read of the configuration memory completes (R188, R189). -/
  | imageLoad (inputs : StartInputs)
  /-- A tick of 10 ms (R192), with what is sampled at it. -/
  | tick (samples : TickSamples)
  /-- A detection line is classified into a band (R18). -/
  | readingEvent (line : LineId) (band : Band)
  /-- The line timer of a detection line expires (R21, R23, R24). -/
  | lineTimerExpiry (line : LineId)
  /-- The chatter window of a detection line expires (R22). -/
  | chatterWindowExpiry (line : LineId)
  /-- The walk-test session timer expires (R31). -/
  | sessionTimerExpiry
  /-- The raw level of a command line changes (R32). -/
  | rawLevelChange (line : LineId) (level : Level)
  /-- The debounce timer of a command line expires: its level change (R32). -/
  | levelChange (line : LineId)
  /-- A CLAIM is taken from the bulletins handed (R48, R49). -/
  | claim (src : Source) (order : TakeOrder) (epoch : Epoch) (zone : Byte)
  /-- An ESCALATE is taken (R59). -/
  | escalate (src : Source) (order : TakeOrder) (epoch : Epoch) (origin : Byte) (scenario : Byte)
  /-- A STAND-DOWN is taken (R61). -/
  | standDown (src : Source) (order : TakeOrder) (epoch : Epoch)
  /-- A ZONE-REPORT is taken (R5, R6). -/
  | zoneReport (src : Source) (order : TakeOrder) (zone : Byte) (condition : Byte)
  /-- An OVERRIDE is taken (R154, R155). -/
  | override (src : Source) (order : TakeOrder) (group : Byte) (mode : Byte)
  /-- A VIEW is taken (R43, R71). -/
  | view (src : Source) (order : TakeOrder) (epoch : Epoch) (flags : Byte) (origin : Byte) (scenario : Byte)
      (step : Byte) (digest : BitVec 16)
  /-- A STEP-DONE is taken (R102). -/
  | stepDone (src : Source) (order : TakeOrder) (epoch : Epoch) (scenario : Byte) (step : Byte) (outcome : Byte)
  /-- A SYNC-REQUEST is taken (R84). -/
  | syncRequest (src : Source)
  /-- A FAULT-NOTICE is taken, for presence alone (R70). -/
  | faultNotice (src : Source) (kind : Byte) (subject : Byte) (severityEdge : Byte)
  /-- The claim window timer expires (R50). -/
  | claimWindowExpiry
  /-- The age timer of a peer expires (R72). -/
  | ageTimerExpiry (station : StationId)
  /-- The join wait timer expires (R78). -/
  | joinWaitExpiry
  /-- The VIEW period timer expires (R83). -/
  | viewPeriodExpiry
  /-- The solo timer expires (R79). -/
  | soloTimerExpiry
  /-- The step timer expires (R105). -/
  | stepTimerExpiry
  /-- The repeat timer expires (R101). -/
  | repeatTimerExpiry
  /-- The settle interval of a limit input of a damper runs out (R111). -/
  | limitEvent (point : PointId) (input : LimitInput)
  /-- The travel timer of a damper expires (R116). -/
  | travelTimerExpiry (point : PointId)
  /-- The settle interval of a fan's input B runs out and its trip level becomes active (R126, R135). -/
  | tripEvent (point : PointId)
  /-- The settle interval of a fan's input B runs out and its trip level becomes inactive (R126, R135). -/
  | tripClear (point : PointId)
  /-- The prove timer of a fan expires (R132). -/
  | proveTimerExpiry (point : PointId)
  /-- The flow-loss timer of a fan expires (R134). -/
  | flowLossTimerExpiry (point : PointId)
  /-- The run-down timer of a fan expires (R132, R133). -/
  | runDownExpiry (point : PointId)
  /-- The uncommanded timer of a fan expires (R136). -/
  | uncommandedTimerExpiry (point : PointId)
  /-- The start gap timer expires (R139). -/
  | startGapExpiry
  /-- Input A of a fan changes to a level, so many milliseconds after the last tick, and holds it for so many
  microseconds, 1000 where the sender does not say (R143; log 10). -/
  | pulseEdge (point : PointId) (level : Level) (offset : Fin 10) (held : Nat := 1000)
  /-- The no-edge timer of a fan's measurement record expires (R144). -/
  | noEdgeTimerExpiry (point : PointId)
  /-- The transmitter begins an attempt where the line is idle (R166): outside a frame it has been recessive for so many bit
  times, 10 where the sender does not say (R159; log 50). -/
  | transmitAttempt (quietBits : Nat := 10)
  /-- The transmitter sent recessive and read dominant at this bit of the contention field, bit 0 first on the
  line (R161). -/
  | contentionYield (bit : Fin 7)
  /-- The transmitter reads a mismatch outside the contention field, at the start bit or, where the sender does not
  say, later (R162). -/
  | bitError (startBit : Bool := false)
  /-- The transmitter has read every bit of its frame as sent (R167). -/
  | transmitComplete
  /-- A frame not carried to completion by this transmitter reaches its end, as read here (R160, R168, R171). -/
  | frameComplete (frame : Frame)
  /-- A frame ends, as read here, with an error that its fields show (R160, R169); it is broken off where the line
  stops changing before its end, so that its missing bits read as the level held. Not broken off where the sender does not say. -/
  | frameError (frame : Frame) (brokenOff : Bool := false)
  /-- The sync holdoff timer expires (R170). -/
  | syncHoldoffExpiry
  /-- The duplicate timer expires (R171). -/
  | duplicateTimerExpiry
  /-- The dominant timer expires: the line is dominant, and its last change lies so many bit times back, 250 where the sender does
  not say (R172; log 55). -/
  | dominantTimerExpiry (heldBits : Nat := 250)
  /-- The recovery timer expires: the line is recessive, and its last change lies so many bit times back, 1250 where the sender
  does not say (R173). -/
  | recoveryTimerExpiry (heldBits : Nat := 1250)
  /-- The LINK-RESTART command is handed over by the Maintenance Port (R174, R194). -/
  | linkRestart
  /-- The CLEAR-LOG command is handed over (R183). -/
  | clearLog
  /-- The STATION-RESET command is handed over (R187, R194). -/
  | stationReset
  /-- The TEST-ON command is handed over, with its argument (R30). -/
  | testOn (argument : BitVec 16)
  /-- The TEST-OFF command is handed over (R31). -/
  | testOff
  /-- The ISOLATE command is handed over, with its argument (R26). -/
  | isolate (argument : BitVec 16)
  /-- The RESTORE command is handed over, with its argument (R27). -/
  | restore (argument : BitVec 16)
  /-- The TRACE-PAGE command is handed over, with its argument (R194). -/
  | tracePage (argument : BitVec 16)
  /-- A command code of 0 or above 8 is taken (R194). -/
  | unknownCommand (code : Byte)
  /-- A write transfer to a 7-bit I2C address with its data bytes (R193). -/
  | writeTransfer (address : BitVec 7) (bytes : List Byte)
  /-- A read transfer from a 7-bit I2C address that clocks so many bytes out (R193). -/
  | readTransfer (address : BitVec 7) (count : Nat)
deriving DecidableEq, Repr

end Sys2Proof
end

