-- ==== Sys2Proof/Config.lean ====
section
/-! DEFINITION. The free values of the model: results that the spec does not state. Each is an opaque constant
without a body, so nothing can be proved of the value it gives. -/

namespace Sys2Proof.Config

/-- The high four bits of the result byte after a command code above 15, which the four bits cannot hold (R194; log 11).
The first argument is the count of values drawn so far. -/
opaque freeResultNibble : Nat → Byte → BitVec 4

/-- Whether a remaining time that is not a whole number of the unit it is read in is shown rounded up, at one read
transfer (R193; log 12).
The first argument is the count of values drawn so far and the second the time that remains. -/
opaque freeRoundsUp : Nat → Nat → Bool

/-- How a pulse duration of 65536 ms or more is shown in its two bytes, at one read transfer (R193; log 12).
The first argument is the count of values drawn so far and the second the duration. -/
opaque freeDuration : Nat → Nat → BitVec 16

end Sys2Proof.Config
end

