-- ==== Sys2Proof/Machine/State.lean ====
section
/-! DEFINITION. The state of the station as plain data, block by block (00_scope.md, "Block overview"), the reasons a
step can stop, and the station right after a power-on reset. -/

namespace Sys2Proof.Machine

/-! ## Faults and refusals of the model -/

/-- No command of this station ends in a stop of the machine: the faults of the manual are reports to the Fault Unit
(chapter 10) and change the state. So no reason is given. -/
inductive Fault where
deriving DecidableEq, Repr

/-- Why a command has no meaning here. -/
inductive Refusal where
  /-- Raised by an arm of `exec` whose command has not been modelled yet; safe, since nothing is claimed of it. -/
  | notModelled (mnemonic : String)
deriving DecidableEq, Repr

/-! ## Names shared by the blocks -/

/-- The condition of a zone (R2 to R6). -/
inductive Condition where
  | quiet
  | alarm
  | fault
  | test
  | isolated
deriving DecidableEq, Repr

/-- The mode of an override group (R150). -/
inductive GroupMode where
  | auto
  | on
  | off
deriving DecidableEq, Repr

/-- The phase of the view (R37). -/
inductive Phase where
  | idle
  | gathering
  | running
deriving DecidableEq, Repr

/-- The station mode, with the kind of JOINING (R75 to R81). -/
inductive Mode where
  | starting
  | configFault
  | joiningAfterReset
  | joiningAfterIsland
  | onLine
  | island
deriving DecidableEq, Repr

/-- A demand on a point (R88). -/
inductive Demand where
  | rest
  | run
  | stop
  | toOpen
  | toShut
deriving DecidableEq, Repr

/-- An action configured for a point: a demand, or LEAVE (R87). -/
inductive Action where
  | give (demand : Demand)
  | leave
deriving DecidableEq, Repr

/-- Where a demand comes from (R88). -/
inductive DemandSource where
  | rest
  | normal
  | standDownHold
  | pre
  | scenario
  | override
deriving DecidableEq, Repr

/-- One entry of the Demand Table (R88). -/
structure DemandEntry where
  demand : Demand
  source : DemandSource
deriving DecidableEq, Repr

/-- The state of a detection line (section 2.2). -/
inductive LineState where
  | normal
  | confirming
  | active
  | clearing
  | chatter
  | openFault
  | shortFault
  | isolated
deriving DecidableEq, Repr

/-- A reading of a detection line (R18). -/
inductive Reading where
  | normal
  | active
  | openCircuit
  | shortCircuit
deriving DecidableEq, Repr

/-- The state of a damper (R110). -/
inductive DamperState where
  | isOpen
  | isShut
  | opening
  | shutting
  | mid
  | jammed
  | limitConflict
deriving DecidableEq, Repr

/-- The state of a fan (R125). -/
inductive FanState where
  | stopped
  | queued
  | starting
  | running
  | stopping
  | noFlow
  | tripped
deriving DecidableEq, Repr

/-- The state of a point as the PTC reports it (R99, R146). -/
inductive PointState where
  | damper (state : DamperState)
  | fan (state : FanState)
deriving DecidableEq, Repr

/-- The kinds of fault (section 10.1). -/
inductive FaultKind where
  | lineOpen
  | lineShort
  | lineChatter
  | damperJammed
  | damperLimits
  | damperProofLost
  | fanNoFlow
  | fanFlowLost
  | fanTrip
  | fanUncommanded
  | stepForced
  | standDownRefused
  | viewDispute
  | stationAbsent
  | configMismatch
  | duplicateStation
  | linkStuck
  | island
  | rxLoss
  | txFailed
  | configBad
deriving DecidableEq, Repr

/-- The severities (R177). -/
inductive Severity where
  | masked
  | note
  | trouble
  | critical
deriving DecidableEq, Repr

/-- How a bulletin of the Transmit Queue was lost (R179). -/
inductive LossCause where
  | attempts
  | overflow
deriving DecidableEq, Repr

/-- The subject detail of a first record (R179). -/
inductive Detail where
  | none
  | point (state : PointState) (demand : Demand)
  | line (state : LineState)
  | station (lastHeard : Option Nat)
  | step (scenario : ScenarioId) (missing : StationSet)
  | lost (cause : LossCause)
deriving DecidableEq, Repr

/-- A bulletin with the bytes of its payload; the block that owns the kind judges the bytes (R160). -/
inductive Bulletin where
  | claim (epoch : Epoch) (zone : Byte)
  | escalate (epoch : Epoch) (origin : Byte) (scenario : Byte)
  | standDown (epoch : Epoch)
  | zoneReport (zone : Byte) (condition : Byte)
  | override (group : Byte) (mode : Byte)
  | view (epoch : Epoch) (flags : Byte) (origin : Byte) (scenario : Byte) (step : Byte) (digest : BitVec 16)
  | stepDone (epoch : Epoch) (scenario : Byte) (step : Byte) (outcome : Byte)
  | syncRequest
  | faultNotice (kind : Byte) (subject : Byte) (severityEdge : Byte)
deriving DecidableEq, Repr

/-! ## LIU: detection lines, command lines, walk test (chapter 2) -/

/-- The configured part of a detection-line record (section 2.2); times in tenths of a second. -/
structure LineConfig where
  zone : Option ZoneId
  normallyClosed : Bool
  confirm : Nat
  clear : Nat
  chatterLimit : Nat
  chatterAlarm : Bool
  isolatedAtStart : Bool
deriving DecidableEq, Repr

/-- A detection-line record (section 2.2, R19). -/
structure LineRecord where
  cfg : LineConfig
  state : LineState
  reading : Reading
  timer : Timer
  window : Timer
  toggles : Nat
deriving DecidableEq, Repr

/-- The function of a command line with its parameter (R32). -/
inductive CommandFunction where
  | unused
  | standDown (falling : Bool)
  | groupOn (group : GroupId)
  | groupOff (group : GroupId)
deriving DecidableEq, Repr

/-- A command-line record (R32, R33). -/
structure CommandRecord where
  function : CommandFunction
  raw : Level
  debounced : Level
  timer : Timer
deriving DecidableEq, Repr

/-- A running walk-test session (R30). -/
structure Session where
  lines : LineSet
  timer : Timer
deriving DecidableEq, Repr

/-- The Line Input Unit. -/
structure Liu where
  lines : Vector LineRecord 8
  session : Option Session
  /-- The condition last handed of each home zone (R29). -/
  lastCondition : Vector Condition 64
  commands : Vector CommandRecord 8
  /-- The mode last handed of each group (R35). -/
  lastRequested : Vector GroupMode 16
deriving DecidableEq, Repr

/-! ## ZTU: the Zone Table (chapter 1) -/

/-- The copy state of a zone's entry (R2, R6, R7). -/
inductive CopyState where
  | home
  | current
  | stale
  | unheard
deriving DecidableEq, Repr

/-- The configured part of the entry of an in-use zone (R1). -/
structure ZoneConfig where
  home : StationId
  rank : Nat
  scenario : ScenarioId
deriving DecidableEq, Repr

/-- An entry of the Zone Table; out of use where it has no configured part (R1, R3). -/
structure ZoneEntry where
  cfg : Option ZoneConfig
  condition : Condition
  copy : CopyState
  /-- Tenths of a second since start, or never. -/
  lastReport : Option Nat
deriving DecidableEq, Repr

/-- The Zone Table Unit. -/
structure Ztu where
  zones : Vector ZoneEntry 64
  rotation : Option ZoneId
deriving DecidableEq, Repr

/-! ## AGE: the Scenario Record (chapter 3) -/

/-- The view: the first seven fields of the Scenario Record (R37). -/
structure View where
  epoch : Epoch
  phase : Phase
  escalated : Bool
  origin : Option ZoneId
  scenario : ScenarioId
  step : StepId
  established : Bool
deriving DecidableEq, Repr

/-- The Agreement Engine (R37). -/
structure Age where
  view : View
  void : Bool
  candidates : List ZoneId
  subsequent : List ZoneId
  window : Timer
  escalationEpoch : Option Epoch
deriving DecidableEq, Repr

/-! ## PRM: presence and the station mode (chapter 4) -/

/-- The state of a presence entry (R68). -/
inductive Presence where
  | unknown
  | live
  | absent
  | mismatched
deriving DecidableEq, Repr

/-- The last VIEW summary of a presence entry, with the codes the VIEW carried (R71). -/
structure Summary where
  epoch : Epoch
  phase : BitVec 2
  escalated : Bool
  established : Bool
  origin : Byte
  scenario : Byte
  step : Byte
  mode : BitVec 2
  trouble : Bool
deriving DecidableEq, Repr

/-- An entry of the Presence Table (R68). -/
structure PresenceEntry where
  state : Presence
  age : Timer
  lastHeard : Option Nat
  summary : Option Summary
  digest : Option (BitVec 16)
deriving DecidableEq, Repr

/-- The Presence Monitor. -/
structure Prm where
  table : Vector PresenceEntry 32
  mode : Mode
  configured : StationSet
  joinWait : Timer
  viewPeriod : Timer
  solo : Timer
deriving DecidableEq, Repr

/-! ## STS: steps and demand (chapter 5) -/

/-- One step of a scenario program (R87); the timeout in tenths of a second. -/
structure StepDef where
  roster : StationSet
  timeout : Nat
deriving DecidableEq, Repr

/-- A scenario program (R87) with the scenario's escalation fields (R58, R189). Step k stands at index k - 1. -/
structure Program where
  stepCount : Nat
  steps : Vector StepDef 8
  escalationCount : Nat
  escalationTarget : Option ScenarioId
deriving DecidableEq, Repr

/-- The action of a point in one scenario and the step it belongs to (R87). -/
structure PointAction where
  action : Action
  step : StepId
deriving DecidableEq, Repr

/-- The program content of a point (R87). -/
structure PointProgram where
  group : Option GroupId
  normal : Action
  pre : Action
  scenarios : Vector PointAction 32
deriving DecidableEq, Repr

/-- How the row of a step stands (R95). -/
inductive Completion where
  | opened
  | barrier
  | forced
  | caughtUp
deriving DecidableEq, Repr

/-- A row of the Step Completion Table (R95). -/
structure StepRow where
  heard : StationSet
  withFaults : StationSet
  completion : Completion
deriving DecidableEq, Repr

/-- The last report of a point (R99, R146). -/
structure PointReport where
  state : PointState
  attemptsRemain : Bool
deriving DecidableEq, Repr

/-- A point report handed to the STS and not yet taken (R99, R146; log 7). -/
structure WaitingReport where
  point : PointId
  report : PointReport
deriving DecidableEq, Repr

/-- The Step Sequencer. -/
structure Sts where
  programs : Vector Program 32
  points : Vector PointProgram 16
  demands : Vector DemandEntry 16
  frozen : Vector DemandEntry 16
  viewSettled : Bool
  standDownPending : Bool
  step : StepId
  stepTimer : Timer
  expected : StationSet
  ownSettled : Bool
  repeatTimer : Timer
  epoch : Epoch
  scenario : ScenarioId
  phase : Phase
  established : Bool
  /-- The step timer has expired during the joining hold and its expiry waits for the end of the hold (R107). -/
  pendingExpiry : Bool
  rows : Vector StepRow 8
  reports : Vector (Option PointReport) 16
  /-- The point reports handed and not yet taken, oldest first; empty between commands (log 7). -/
  waiting : List WaitingReport
deriving DecidableEq, Repr

/-! ## PTC: damper and fan points (chapters 6 and 7) -/

/-- The record of a damper point (R110); the travel limit in tenths of a second. -/
structure Damper where
  energiseToShut : Bool
  travelLimit : Nat
  demand : Demand
  state : DamperState
  drive : Bool
  travel : Timer
  limitA : Level
  limitB : Level
  settleA : Timer
  settleB : Timer
  proofLost : Bool
deriving DecidableEq, Repr

/-- The record of a fan point (R125); configured times in tenths of a second. -/
structure Fan where
  interlock : PointSet
  proveTime : Nat
  runDown : Nat
  flowLoss : Nat
  restarts : Nat
  tripWhenMade : Bool
  demand : Demand
  state : FanState
  drive : Bool
  prove : Timer
  flow : Timer
  run : Timer
  uncommandedTimer : Timer
  attempts : Nat
  unmet : PointSet
  inputB : Level
  settleB : Timer
  uncommanded : Bool
  /-- FAN-NO-FLOW is active for the point (R130, R132). -/
  noFlow : Bool
  /-- FAN-FLOW-LOST is active for the point (R130, R132). -/
  flowLost : Bool
deriving DecidableEq, Repr

/-- The record of an UNUSED point (R110, R125): it has no state, and holds the fields of a damper's and of a fan's record
at the values that its reset gives them; the limit levels alone are sampled. -/
structure UnusedPoint where
  energiseToShut : Bool
  travelLimit : Nat
  drive : Bool
  travel : Timer
  limitA : Level
  limitB : Level
  proofLost : Bool
  interlock : PointSet
  proveTime : Nat
  runDown : Nat
  flowLoss : Nat
  restarts : Nat
  tripWhenMade : Bool
  prove : Timer
  flow : Timer
  run : Timer
  uncommandedTimer : Timer
  attempts : Nat
  unmet : PointSet
  tripActive : Bool
  uncommanded : Bool
deriving DecidableEq, Repr

/-- A point record: UNUSED, a damper, or a fan (R110, R125). -/
inductive PointRecord where
  | unused (record : UnusedPoint)
  | damper (record : Damper)
  | fan (record : Fan)
deriving DecidableEq, Repr

/-- The Point Controller. -/
structure Ptc where
  points : Vector PointRecord 16
  /-- The Start Queue, oldest first (R137). -/
  startQueue : List PointId
  /-- The configured start gap in tenths of a second (R125). -/
  startGap : Nat
  gap : Timer
deriving DecidableEq, Repr

/-! ## PMU: flow-proof measurement (R142) -/

/-- The measurement record of a fan point (R142); all times in milliseconds. -/
structure Pmu where
  count : Nat
  threshold : Nat
  proven : Bool
  /-- The complete periods, oldest first, each with its high and its low duration. -/
  periods : List (Nat × Nat)
  start : Option Nat
  lastHigh : Option Nat
  lastLow : Option Nat
  /-- The no-edge timer: the milliseconds from the last tick to its expiry (log 10). -/
  noEdge : Timer
  /-- The level of input A at its last stamped change, or at acceptance before the first (log 26). -/
  level : Level
  lastRise : Option Nat
  lastFall : Option Nat
deriving DecidableEq, Repr

/-! ## OVU: overrides (chapter 8) -/

/-- An entry of the Override Table (R150). -/
structure OverrideEntry where
  owner : Option StationId
  mode : GroupMode
  stale : Bool
  lastHeard : Option Nat
deriving DecidableEq, Repr

/-- The Override Unit (R150, R151). -/
structure Ovu where
  table : Vector OverrideEntry 16
  requested : Vector GroupMode 16
  rotation : Option GroupId
  localApply : Bool
deriving DecidableEq, Repr

/-! ## BSC: the bus (chapter 9) -/

/-- An entry of the Transmit Queue (R163). -/
structure TxEntry where
  bulletin : Bulletin
  /-- Ticks since start at which the bulletin was queued. -/
  queuedAt : Nat
  attempts : Nat
  inAttempt : Bool
deriving DecidableEq, Repr

/-- An attempt of the transmitter: the bulletin it began with, and whether a newer VIEW has replaced its entry
since (R164, R166). -/
structure Attempt where
  sent : Bulletin
  replaced : Bool
deriving DecidableEq, Repr

/-- An entry of the Receive FIFO (R168). -/
structure RxEntry where
  bulletin : Bulletin
  src : Source
deriving DecidableEq, Repr

/-- What the BSC has seen of the line (R159; log 50): a frame on it, or so many recessive bit times outside a frame, up to the
10 that make the line idle. -/
inductive LineWatch where
  | frame
  | outside (recessive : Nat)
deriving DecidableEq, Repr

/-- The Bus Controller. The transmitter is halted exactly while LINK-STUCK is active (R172, R173). -/
structure Bsc where
  queue : List TxEntry
  attempt : Option Attempt
  fifo : List RxEntry
  /-- Bulletins handed at a tick whose takers have not taken them yet, in FIFO order (R168; log 3). -/
  handed : List RxEntry
  /-- This station's own attempt has ended in a bit error in the frame now on the line (R162, R169; log 26). -/
  ownError : Bool
  /-- The line as last seen, inside a frame or outside with its recessive bit times (R159). -/
  watch : LineWatch
  linkStuck : Bool
  /-- The dominant timer, in bit times. -/
  dominant : Timer
  /-- The recovery timer, in bit times. -/
  recovery : Timer
  syncDue : Bool
  holdoff : Timer
  /-- The duplicate timer; DUPLICATE-STATION is active exactly while it runs (R171). -/
  duplicate : Timer
deriving DecidableEq, Repr

/-! ## FLU: faults and the Sequence Trace (chapter 10) -/

/-- An entry of the Active Fault Table (R178); the subject is 255 for none, the onset time in tenths. -/
structure FaultEntry where
  kind : FaultKind
  subject : Byte
  severity : Severity
  onset : Nat
deriving DecidableEq, Repr

/-- A valid first record (R179). -/
structure FirstRecord where
  kind : FaultKind
  subject : Byte
  onset : Nat
  mode : Mode
  epoch : Epoch
  phase : Phase
  scenario : ScenarioId
  step : StepId
  detail : Detail
deriving DecidableEq, Repr

/-- The kinds of trace event, in the order of R185. -/
inductive TraceKind where
  | viewAdopted
  | windowOpened
  | windowClosed
  | stepStarted
  | stepComplete
  | stepForced
  | pointState
  | overrideChanged
  | faultOnset
  | faultClear
  | modeChanged
  | standDown
deriving DecidableEq, Repr

/-- An entry of the Sequence Trace (R184); the time in tenths since start. -/
structure TraceEntry where
  serial : BitVec 16
  time : Nat
  kind : TraceKind
  subject : Byte
  value1 : Byte
  value2 : Byte
deriving DecidableEq, Repr

/-- A report to the FLU (R177, R178). It names no time (R179; log 51). -/
inductive FaultReport where
  /-- A fault that has begun, or a momentary one; the detail is that of the block at the report (R179; log 35). -/
  | onset (kind : FaultKind) (subject : Byte) (detail : Detail) (momentary : Bool)
  /-- A condition fault that has ended. -/
  | clear (kind : FaultKind) (subject : Byte)
deriving DecidableEq, Repr

/-- The Fault Unit. -/
structure Flu where
  /-- The severity of each kind, at its code less one (R177). -/
  severities : Vector Severity 21
  active : List FaultEntry
  tableFull : Bool
  latch : Bool
  firstCritical : Option FirstRecord
  firstTrouble : Option FirstRecord
  nextCritical : KindSet
  nextTrouble : KindSet
  noteSeen : KindSet
  /-- The TROUBLE line is driven active (R181). -/
  troubleLine : Bool
  /-- The CRITICAL line is driven active (R181). -/
  criticalLine : Bool
  trace : Vector (Option TraceEntry) 128
  writePos : Fin 128
  nextSerial : BitVec 16
  /-- The faults whose onsets reach the FLU late, as the last tick names them (R178; log 51). -/
  late : List FaultName
  /-- The reports on the way to the FLU, oldest first: one group for each event of a block, its late onset with the reports that the
  block has handed behind it (R177, R178; log 51). -/
  waiting : List (List FaultReport)
deriving DecidableEq, Repr

/-! ## CFL and MNP: configuration, timebase, maintenance port (chapter 11) -/

/-- Where the start of the station stands (R187, R188). -/
inductive StartStage where
  | held
  | reading
  | done
deriving DecidableEq, Repr

/-- The Configuration Loader and timebase. -/
structure Cfl where
  /-- The strapped number, none before the first sampling after a power-on reset (R188, R193). -/
  station : Option StationId
  stage : StartStage
  image : List Byte
  digest : Option (BitVec 16)
  loadResult : Nat
  failingOffset : Nat
  compareCount : Option Nat
  /-- Ticks since acceptance (R192). -/
  ticks : Nat
  /-- Milliseconds from the last tick to the latest edge taken since it (R143; log 10). -/
  millis : Nat
  /-- The claim window and the absence limit in tenths of a second (R38, R68). -/
  claimWindow : Nat
  absence : Nat
deriving DecidableEq, Repr

/-- The Maintenance Port (R193, R194). -/
structure Mnp where
  pointer : BitVec 16
  command : Byte
  argHigh : Byte
  argLow : Byte
  result : Byte
  page : Fin 16
  /-- The bytes the last read transfer clocked out (log 33). -/
  served : List Byte
  /-- How many free values have been drawn so far (log 11, log 12). -/
  drawn : Nat
deriving DecidableEq, Repr

/-! ## The whole state -/

/-- The station, with the queue of the commands that are waiting, first in first out (log 2). -/
structure State where
  liu : Liu
  ztu : Ztu
  age : Age
  prm : Prm
  sts : Sts
  ptc : Ptc
  pmu : Vector Pmu 16
  ovu : Ovu
  bsc : Bsc
  flu : Flu
  cfl : Cfl
  mnp : Mnp
  pending : List Instr
deriving DecidableEq, Repr

/-! ## The values after a power-on reset -/

/-- The reset values of the LIU (R19, R33; R29 and R35 fill the rest at acceptance, log 13). -/
def Liu.reset : Liu where
  lines := Vector.replicate 8
    { cfg := { zone := none, normallyClosed := false, confirm := 50, clear := 100, chatterLimit := 5,
               chatterAlarm := false, isolatedAtStart := false },
      state := .normal, reading := .normal, timer := none, window := none, toggles := 0 }
  session := none
  lastCondition := Vector.replicate 64 .quiet
  commands := Vector.replicate 8 { function := .unused, raw := .broken, debounced := .broken, timer := none }
  lastRequested := Vector.replicate 16 .auto

/-- The reset values of the ZTU (R3). -/
def Ztu.reset : Ztu where
  zones := Vector.replicate 64 { cfg := none, condition := .quiet, copy := .unheard, lastReport := none }
  rotation := none

/-- The reset values of the Scenario Record (R37). -/
def Age.reset : Age where
  view := { epoch := 0, phase := .idle, escalated := false, origin := none, scenario := 0, step := 0,
            established := false }
  void := true
  candidates := []
  subsequent := []
  window := none
  escalationEpoch := none

/-- The reset values of the PRM (R68, R69, R75). -/
def Prm.reset : Prm where
  table := Vector.replicate 32 { state := .unknown, age := none, lastHeard := none, summary := none, digest := none }
  mode := .starting
  configured := 0
  joinWait := none
  viewPeriod := none
  solo := none

/-- The values a scenario program holds after a reset and with no SCENARIO record (R87, R189; log 13). -/
def Program.reset : Program where
  stepCount := 1
  steps := Vector.replicate 8 { roster := 0, timeout := 1200 }
  escalationCount := 0
  escalationTarget := none

/-- The values a point's program holds after a reset (R87; log 23). -/
def PointProgram.reset : PointProgram where
  group := none
  normal := .give .rest
  pre := .give .rest
  scenarios := Vector.replicate 32 { action := .give .rest, step := 0 }

/-- An empty row of the Step Completion Table (R95). -/
def StepRow.empty : StepRow where
  heard := 0
  withFaults := 0
  completion := .opened

/-- The reset values of the STS (R87, R88, R91 to R95). -/
def Sts.reset : Sts where
  programs := Vector.replicate 32 Program.reset
  points := Vector.replicate 16 PointProgram.reset
  demands := Vector.replicate 16 { demand := .rest, source := .rest }
  frozen := Vector.replicate 16 { demand := .rest, source := .rest }
  viewSettled := false
  standDownPending := false
  step := 0
  stepTimer := none
  expected := 0
  ownSettled := false
  repeatTimer := none
  epoch := 0
  scenario := 0
  phase := .idle
  established := false
  pendingExpiry := false
  rows := Vector.replicate 8 StepRow.empty
  reports := Vector.replicate 16 none
  waiting := []

/-- The values of an UNUSED point's record (R110, R125), with its sampled levels. -/
def UnusedPoint.reset (limitA limitB : Level) : UnusedPoint where
  energiseToShut := false
  travelLimit := 600
  drive := false
  travel := none
  limitA := limitA
  limitB := limitB
  proofLost := false
  interlock := 0
  proveTime := 300
  runDown := 300
  flowLoss := 50
  restarts := 1
  tripWhenMade := false
  prove := none
  flow := none
  run := none
  uncommandedTimer := none
  attempts := 0
  unmet := 0
  tripActive := false
  uncommanded := false

/-- The reset values of the PTC (R110, R125; levels broken, log 13). -/
def Ptc.reset : Ptc where
  points := Vector.replicate 16 (.unused (UnusedPoint.reset .broken .broken))
  startQueue := []
  startGap := 50
  gap := none

/-- The reset values of a measurement record (R142; level and stamps, log 26). -/
def Pmu.reset : Pmu where
  count := 4
  threshold := 500
  proven := false
  periods := []
  start := none
  lastHigh := none
  lastLow := none
  noEdge := none
  level := .broken
  lastRise := none
  lastFall := none

/-- The reset values of the OVU (R150, R151). -/
def Ovu.reset : Ovu where
  table := Vector.replicate 16 { owner := none, mode := .auto, stale := false, lastHeard := none }
  requested := Vector.replicate 16 .auto
  rotation := none
  localApply := false

/-- The reset values of the BSC (R175). -/
def Bsc.reset : Bsc where
  queue := []
  attempt := none
  fifo := []
  handed := []
  ownError := false
  watch := .outside 0
  linkStuck := false
  dominant := none
  recovery := none
  syncDue := false
  holdoff := none
  duplicate := none

/-- The default severities in the order of the fault kind codes (section 10.1, R177). -/
def defaultSeverities : Vector Severity 21 :=
  #v[.trouble, .trouble, .trouble, .critical, .trouble, .trouble, .critical, .critical, .critical, .note, .trouble,
    .note, .note, .trouble, .critical, .critical, .critical, .critical, .note, .note, .critical]

/-- The trace entry of the entry into STARTING at power-on: subject none, previous mode none, mode code 3 (R185; log 25). -/
def powerOnEntry : TraceEntry where
  serial := 0
  time := 0
  kind := .modeChanged
  subject := 255
  value1 := 255
  value2 := 3

/-- The FLU after a power-on reset: its records empty (R178 to R181, R184), the entry into STARTING traced (R185), and no onset
on the way (log 51). -/
def Flu.reset : Flu where
  severities := defaultSeverities
  active := []
  tableFull := false
  latch := false
  firstCritical := none
  firstTrouble := none
  nextCritical := 0
  nextTrouble := 0
  noteSeen := 0
  troubleLine := false
  criticalLine := false
  trace := (Vector.replicate 128 none).set 0 (some powerOnEntry)
  writePos := 1
  nextSerial := 1
  late := []
  waiting := []

/-- The reset values of the CFL (R187, R188; log 25). -/
def Cfl.reset : Cfl where
  station := none
  stage := .held
  image := []
  digest := none
  loadResult := 0
  failingOffset := 0
  compareCount := none
  ticks := 0
  millis := 0
  claimWindow := 30
  absence := 40

/-- The reset values of the MNP (R193, R194; log 25). -/
def Mnp.reset : Mnp where
  pointer := 0
  command := 0
  argHigh := 0
  argLow := 0
  result := 0
  page := 0
  served := []
  drawn := 0

/-- The station right after a power-on reset: in STARTING, with no command waiting (R187). -/
def State.reset : State where
  liu := Liu.reset
  ztu := Ztu.reset
  age := Age.reset
  prm := Prm.reset
  sts := Sts.reset
  ptc := Ptc.reset
  pmu := Vector.replicate 16 Pmu.reset
  ovu := Ovu.reset
  bsc := Bsc.reset
  flu := Flu.reset
  cfl := Cfl.reset
  mnp := Mnp.reset
  pending := []

end Sys2Proof.Machine
end

