-- ==== Sys2Proof/Machine/Ops.lean ====
section
/-! DEFINITION. The named operations over the state that every block uses: writing an entry of a table, replacing one
block, timers, sets, and the time. -/

namespace Sys2Proof.Machine

/-! ## Tables and sets -/

/-- The table with the entry at an index replaced. -/
def put {α : Type} {n : Nat} (v : Vector α n) (i : Fin n) (x : α) : Vector α n :=
  v.set i.val x i.isLt

/-- Whether a set holds a member. -/
def has {n : Nat} (set : BitVec n) (i : Nat) : Bool :=
  set.getLsbD i

/-- The set with a member added. -/
def insert {n : Nat} (set : BitVec n) (i : Nat) : BitVec n :=
  set ||| (1#n <<< i)

/-- The set with a member taken out. -/
def remove {n : Nat} (set : BitVec n) (i : Nat) : BitVec n :=
  set &&& ~~~(1#n <<< i)

/-- How many members a set has. -/
def size {n : Nat} (set : BitVec n) : Nat :=
  ((List.range n).filter (has set)).length

/-- The set of the indices of a table at which a test passes. -/
def gather (n : Nat) (test : Fin n → Bool) : BitVec n :=
  (List.finRange n).foldl (fun set i => if test i then insert set i.val else set) 0

/-- A number as an index of a table of that size, where it is one. -/
def index (n : Nat) (value : Nat) : Option (Fin n) :=
  if h : value < n then some ⟨value, h⟩ else none

/-- The byte of an index. -/
def byteOf (value : Nat) : Byte :=
  BitVec.ofNat 8 value

/-! ## Replacing one block -/

/-- The state with the Line Input Unit replaced. -/
def State.withLiu (s : State) (x : Liu) : State := { s with liu := x }
/-- The state with the Zone Table Unit replaced. -/
def State.withZtu (s : State) (x : Ztu) : State := { s with ztu := x }
/-- The state with the Scenario Record replaced. -/
def State.withAge (s : State) (x : Age) : State := { s with age := x }
/-- The state with the Presence Monitor replaced. -/
def State.withPrm (s : State) (x : Prm) : State := { s with prm := x }
/-- The state with the Step Sequencer replaced. -/
def State.withSts (s : State) (x : Sts) : State := { s with sts := x }
/-- The state with the Point Controller replaced. -/
def State.withPtc (s : State) (x : Ptc) : State := { s with ptc := x }
/-- The state with the measurement records replaced. -/
def State.withPmu (s : State) (x : Vector Pmu 16) : State := { s with pmu := x }
/-- The state with the Override Unit replaced. -/
def State.withOvu (s : State) (x : Ovu) : State := { s with ovu := x }
/-- The state with the Bus Controller replaced. -/
def State.withBsc (s : State) (x : Bsc) : State := { s with bsc := x }
/-- The state with the Fault Unit replaced. -/
def State.withFlu (s : State) (x : Flu) : State := { s with flu := x }
/-- The state with the Configuration Loader replaced. -/
def State.withCfl (s : State) (x : Cfl) : State := { s with cfl := x }
/-- The state with the Maintenance Port replaced. -/
def State.withMnp (s : State) (x : Mnp) : State := { s with mnp := x }
/-- The state with the queue of waiting commands replaced. -/
def State.withPending (s : State) (x : List Instr) : State := { s with pending := x }

/-! ## Timers and the time -/

/-- Whether a timer has run its interval out: its expiry is due (log 1). -/
def timerDue (t : Timer) : Bool :=
  t == some 0

/-- A timer one unit later. -/
def timerCount (t : Timer) (units : Nat) : Timer :=
  match t with
  | none => none
  | some left => some (left - units)

/-- A timer started with an interval in tenths of a second: ten ticks for each (R192). -/
def startTenths (tenths : Nat) : Timer :=
  some (10 * tenths)

/-- A timer started with an interval in whole seconds. -/
def startSeconds (seconds : Nat) : Timer :=
  some (100 * seconds)

/-- The time since start in tenths of a second (R192). -/
def State.now (s : State) : Nat :=
  s.cfl.ticks / 10

/-- The time since start in milliseconds, as the last tick and the latest edge since it give it (R143, R192; log 10). -/
def State.nowMs (s : State) : Nat :=
  s.cfl.ticks * 10 + s.cfl.millis

/-- This station's number; 0 stands before the first sampling of the straps, when nothing reads it (R188). -/
def State.number (s : State) : StationId :=
  s.cfl.station.getD 0

/-! ## The station mode -/

/-- JOINING, of either kind (R75). -/
def Mode.joining (m : Mode) : Bool :=
  match m with
  | .joiningAfterReset | .joiningAfterIsland => true
  | _ => false

/-- ON-LINE or ISLAND. -/
def Mode.joined (m : Mode) : Bool :=
  match m with
  | .onLine | .island => true
  | _ => false

/-- JOINING, ON-LINE or ISLAND: the modes in which the blocks take events. -/
def Mode.active (m : Mode) : Bool :=
  m.joining || m.joined

/-- Whether the station is in JOINING, ON-LINE or ISLAND. -/
def State.isActive (s : State) : Bool :=
  s.prm.mode.active

/-! ## Access to tables -/

/-- The record of a point. -/
def State.point (s : State) (p : PointId) : PointRecord :=
  s.ptc.points[p]

/-- The state with the record of a point replaced. -/
def State.setPoint (s : State) (p : PointId) (x : PointRecord) : State :=
  s.withPtc { s.ptc with points := put s.ptc.points p x }

/-- The record of a detection line. -/
def State.line (s : State) (l : LineId) : LineRecord :=
  s.liu.lines[l]

/-- The state with the record of a detection line replaced. -/
def State.setLine (s : State) (l : LineId) (x : LineRecord) : State :=
  s.withLiu { s.liu with lines := put s.liu.lines l x }

/-- The entry of a zone. -/
def State.zone (s : State) (z : ZoneId) : ZoneEntry :=
  s.ztu.zones[z]

/-- The state with the entry of a zone replaced. -/
def State.setZone (s : State) (z : ZoneId) (x : ZoneEntry) : State :=
  s.withZtu { s.ztu with zones := put s.ztu.zones z x }

/-- The presence entry of a station. -/
def State.presence (s : State) (n : StationId) : PresenceEntry :=
  s.prm.table[n]

/-- The state with the presence entry of a station replaced. -/
def State.setPresence (s : State) (n : StationId) (x : PresenceEntry) : State :=
  s.withPrm { s.prm with table := put s.prm.table n x }

/-- The Override Table entry of a group. -/
def State.group (s : State) (g : GroupId) : OverrideEntry :=
  s.ovu.table[g]

/-- The state with the Override Table entry of a group replaced. -/
def State.setGroup (s : State) (g : GroupId) (x : OverrideEntry) : State :=
  s.withOvu { s.ovu with table := put s.ovu.table g x }

/-- The measurement record of a point. -/
def State.measure (s : State) (p : PointId) : Pmu :=
  s.pmu[p]

/-- The state with the measurement record of a point replaced. -/
def State.setMeasure (s : State) (p : PointId) (x : Pmu) : State :=
  s.withPmu (put s.pmu p x)

/-- The state after an operation repeated over a list of items, in list order. -/
def sweep {α : Type} (items : List α) (f : State → α → State) (s : State) : State :=
  items.foldl f s

end Sys2Proof.Machine
end

