-- ==== Sys2Proof/Machine/Operands.lean ====
section
/-! DEFINITION. Every operand form of the bus: the codes of the encoded values, the bulletins as frames, the check of a
frame, and the codes of the maintenance window (section 9.2, section 11.4). -/

namespace Sys2Proof.Machine

/-! ## Big-endian numbers and bits -/

/-- The high byte of a 16-bit number. -/
def hiByte (w : BitVec 16) : Byte :=
  w.extractLsb' 8 8

/-- The low byte of a 16-bit number. -/
def loByte (w : BitVec 16) : Byte :=
  w.extractLsb' 0 8

/-- The 16-bit number of a high and a low byte; multi-byte numbers go most significant byte first (section 9.2). -/
def word16 (hi lo : Byte) : BitVec 16 :=
  hi ++ lo

/-- The bits of a number, most significant first. -/
def bitsOf {n : Nat} (w : BitVec n) : List Bool :=
  (List.range n).map fun i => w.getMsbD i

/-- The bits of bytes in order, each most significant bit first. -/
def bitsOfBytes (bytes : List Byte) : List Bool :=
  bytes.flatMap bitsOf

/-! ## The check -/

/-- One bit taken into the check register: generator x^16 + x^12 + x^5 + 1 (section 9.2). -/
def crcBit (crc : BitVec 16) (bit : Bool) : BitVec 16 :=
  if crc.msb != bit then (crc <<< 1) ^^^ 0x1021#16 else crc <<< 1

/-- The check over bits in line order: register preset to all ones, no final inversion (section 9.2, R189). -/
def crcOf (bits : List Bool) : BitVec 16 :=
  bits.foldl crcBit 0xFFFF#16

/-! ## Codes of the encoded values -/

/-- The code of a condition (section 9.2). -/
def Condition.code (c : Condition) : Byte :=
  match c with
  | .quiet => 0
  | .alarm => 1
  | .fault => 2
  | .test => 3
  | .isolated => 4

/-- The condition a code names; a code above 4 names none (R5). -/
def Condition.ofCode (b : Byte) : Option Condition :=
  match b.toNat with
  | 0 => some .quiet
  | 1 => some .alarm
  | 2 => some .fault
  | 3 => some .test
  | 4 => some .isolated
  | _ => none

/-- The code of a group mode (section 9.2). -/
def GroupMode.code (m : GroupMode) : Byte :=
  match m with
  | .auto => 0
  | .on => 1
  | .off => 2

/-- The group mode a code names (R154). -/
def GroupMode.ofCode (b : Byte) : Option GroupMode :=
  match b.toNat with
  | 0 => some .auto
  | 1 => some .on
  | 2 => some .off
  | _ => none

/-- The code of a phase (section 9.2). -/
def Phase.code (p : Phase) : BitVec 2 :=
  match p with
  | .idle => 0
  | .gathering => 1
  | .running => 2

/-- The phase a code names; the code 3 names none (R42). -/
def Phase.ofCode (b : BitVec 2) : Option Phase :=
  match b.toNat with
  | 0 => some .idle
  | 1 => some .gathering
  | 2 => some .running
  | _ => none

/-- A zone or none as a byte: 255 for none (section 9.2). -/
def zoneByte (z : Option ZoneId) : Byte :=
  match z with
  | some z => byteOf z.val
  | none => 255

/-- A station or none as a byte: 255 for none (R193). -/
def stationByte (n : Option StationId) : Byte :=
  match n with
  | some n => byteOf n.val
  | none => 255

/-- The station mode bits of a VIEW: 0 JOINING, 1 ON-LINE, 2 ISLAND (section 9.2). No VIEW is queued in the other
modes (R75, R76). -/
def Mode.viewBits (m : Mode) : BitVec 2 :=
  match m with
  | .onLine => 1
  | .island => 2
  | _ => 0

/-- The code of a station mode in the window and the trace (section 11.4). -/
def Mode.code (m : Mode) : Byte :=
  match m with
  | .joiningAfterReset => 0
  | .onLine => 1
  | .island => 2
  | .starting => 3
  | .configFault => 4
  | .joiningAfterIsland => 5

/-- The code of a fault kind (section 9.2). -/
def FaultKind.code (k : FaultKind) : Nat :=
  match k with
  | .lineOpen => 1
  | .lineShort => 2
  | .lineChatter => 3
  | .damperJammed => 4
  | .damperLimits => 5
  | .damperProofLost => 6
  | .fanNoFlow => 7
  | .fanFlowLost => 8
  | .fanTrip => 9
  | .fanUncommanded => 10
  | .stepForced => 11
  | .standDownRefused => 12
  | .viewDispute => 13
  | .stationAbsent => 14
  | .configMismatch => 15
  | .duplicateStation => 16
  | .linkStuck => 17
  | .island => 18
  | .rxLoss => 19
  | .txFailed => 20
  | .configBad => 21

/-- The code of a severity (section 11.4). -/
def Severity.code (v : Severity) : Byte :=
  match v with
  | .masked => 0
  | .note => 1
  | .trouble => 2
  | .critical => 3

/-- The code of a demand (section 11.4). -/
def Demand.code (d : Demand) : Byte :=
  match d with
  | .rest => 0
  | .run => 1
  | .stop => 2
  | .toOpen => 3
  | .toShut => 4

/-- The code of a demand source (section 11.4). -/
def DemandSource.code (d : DemandSource) : Byte :=
  match d with
  | .rest => 0
  | .normal => 1
  | .standDownHold => 2
  | .pre => 3
  | .scenario => 4
  | .override => 5

/-- The code of a damper state (section 11.4). -/
def DamperState.code (d : DamperState) : Byte :=
  match d with
  | .isOpen => 0
  | .isShut => 1
  | .opening => 2
  | .shutting => 3
  | .mid => 4
  | .jammed => 5
  | .limitConflict => 6

/-- The code of a fan state (section 11.4). -/
def FanState.code (f : FanState) : Byte :=
  match f with
  | .stopped => 8
  | .queued => 9
  | .starting => 10
  | .running => 11
  | .stopping => 12
  | .noFlow => 13
  | .tripped => 14

/-- The code of a point state (section 11.4). -/
def PointState.code (p : PointState) : Byte :=
  match p with
  | .damper d => d.code
  | .fan f => f.code

/-- The code of a detection-line state (section 11.4). -/
def LineState.code (l : LineState) : Byte :=
  match l with
  | .normal => 0
  | .confirming => 1
  | .active => 2
  | .clearing => 3
  | .chatter => 4
  | .openFault => 5
  | .shortFault => 6
  | .isolated => 7

/-- The code of a reading, in the order in which the table of section 2.2 lists its values; the text of R18 names OPEN-CIRCUIT and
SHORT-CIRCUIT first (R193, last sentences; log 15: the model's choice). -/
def Reading.code (r : Reading) : Byte :=
  match r with
  | .normal => 0
  | .active => 1
  | .openCircuit => 2
  | .shortCircuit => 3

/-- The code of a copy state (section 11.4). -/
def CopyState.code (c : CopyState) : Byte :=
  match c with
  | .home => 0
  | .current => 1
  | .stale => 2
  | .unheard => 3

/-- The code of a presence state (section 11.4). -/
def Presence.code (p : Presence) : Byte :=
  match p with
  | .unknown => 0
  | .live => 1
  | .absent => 2
  | .mismatched => 3

/-- The code of a trace event kind, 1 to 12 in the order of R185 (section 11.4). -/
def TraceKind.code (k : TraceKind) : Byte :=
  match k with
  | .viewAdopted => 1
  | .windowOpened => 2
  | .windowClosed => 3
  | .stepStarted => 4
  | .stepComplete => 5
  | .stepForced => 6
  | .pointState => 7
  | .overrideChanged => 8
  | .faultOnset => 9
  | .faultClear => 10
  | .modeChanged => 11
  | .standDown => 12

/-! ## Bulletins and frames -/

/-- The kind code of a bulletin (section 9.2). -/
def Bulletin.kindCode (b : Bulletin) : BitVec 4 :=
  match b with
  | .claim .. => 1
  | .escalate .. => 2
  | .standDown .. => 3
  | .zoneReport .. => 4
  | .override .. => 5
  | .view .. => 6
  | .stepDone .. => 7
  | .syncRequest => 8
  | .faultNotice .. => 9

/-- The priority class of a bulletin, 0 the most urgent (section 9.2). -/
def Bulletin.cls (b : Bulletin) : BitVec 2 :=
  match b with
  | .claim .. => 0
  | .escalate .. => 0
  | .standDown .. => 0
  | .zoneReport .. => 1
  | .override .. => 1
  | .view .. => 2
  | .stepDone .. => 2
  | .syncRequest => 3
  | .faultNotice .. => 3

/-- The payload bytes of a bulletin in order (section 9.2). -/
def Bulletin.payload (b : Bulletin) : List Byte :=
  match b with
  | .claim e z => [hiByte e, loByte e, z]
  | .escalate e o c => [hiByte e, loByte e, o, c]
  | .standDown e => [hiByte e, loByte e]
  | .zoneReport z c => [z, c]
  | .override g m => [g, m]
  | .view e f o c k d => [hiByte e, loByte e, f, o, c, k, hiByte d, loByte d]
  | .stepDone e c k o => [hiByte e, loByte e, c, k, o]
  | .syncRequest => []
  | .faultNotice k j v => [k, j, v]

/-- The bulletin of a kind code and payload bytes, where the code is a kind and the bytes are as many as it
takes (R160). -/
def Bulletin.ofPayload (kind : BitVec 4) (payload : List Byte) : Option Bulletin :=
  match kind.toNat, payload with
  | 1, [eh, el, z] => some (.claim (word16 eh el) z)
  | 2, [eh, el, o, c] => some (.escalate (word16 eh el) o c)
  | 3, [eh, el] => some (.standDown (word16 eh el))
  | 4, [z, c] => some (.zoneReport z c)
  | 5, [g, m] => some (.override g m)
  | 6, [eh, el, f, o, c, k, dh, dl] => some (.view (word16 eh el) f o c k (word16 dh dl))
  | 7, [eh, el, c, k, o] => some (.stepDone (word16 eh el) c k o)
  | 8, [] => some .syncRequest
  | 9, [k, j, v] => some (.faultNotice k j v)
  | _, _ => none

/-- Whether a bulletin is a VIEW. -/
def Bulletin.isView (b : Bulletin) : Bool :=
  match b with
  | .view .. => true
  | _ => false

/-- The payload length a kind code requires, where it is a kind (section 9.2). -/
def kindLength (kind : BitVec 4) : Option Nat :=
  match kind.toNat with
  | 1 => some 3
  | 2 => some 4
  | 3 => some 2
  | 4 => some 2
  | 5 => some 2
  | 6 => some 8
  | 7 => some 5
  | 8 => some 0
  | 9 => some 3
  | _ => none

/-- The seven bits of a contention field, class first (section 9.2). -/
def contentionField (cls : BitVec 2) (sender : StationId) : BitVec 7 :=
  cls ++ BitVec.ofNat 5 sender.val

/-- The check of a frame: over contention, kind, length and payload in line order (section 9.2). -/
def frameCheck (cls : BitVec 2) (sender : StationId) (kind length : BitVec 4) (payload : List Byte) : BitVec 16 :=
  crcOf (bitsOf (contentionField cls sender) ++ bitsOf kind ++ bitsOf length ++ bitsOfBytes payload)

/-- The frame a transmitter assembles for a bulletin (R166). -/
def assemble (sender : StationId) (b : Bulletin) : Frame where
  cls := b.cls
  sender := sender
  kind := b.kindCode
  length := BitVec.ofNat 4 b.payload.length
  payload := b.payload
  crc := frameCheck b.cls sender b.kindCode (BitVec.ofNat 4 b.payload.length) b.payload
  endField := 127

/-- The first two format errors: found once the length field has been read, when the receiver abandons the
frame (R160). -/
def frameHeadError (f : Frame) : Bool :=
  match kindLength f.kind with
  | none => true
  | some n => f.length.toNat != n

/-- Station mode bits 3 in a VIEW (R160). -/
def frameModeError (f : Frame) : Bool :=
  match Bulletin.ofPayload f.kind f.payload with
  | some (.view _ flags _ _ _ _) => flags.extractLsb' 1 2 == 3
  | _ => false

/-- The check computed differs from the check received (R160). -/
def frameCrcError (f : Frame) : Bool :=
  frameCheck f.cls f.sender f.kind f.length f.payload != f.crc

/-- What the receiver makes of a frame: the bulletin of a complete frame, or none for a frame with a format or CRC
error (R160). -/
def receiveFrame (f : Frame) : Option Bulletin :=
  if frameHeadError f || frameModeError f || f.endField != 127 || frameCrcError f then none
  else Bulletin.ofPayload f.kind f.payload

/-- The bits of a frame as the receiver reads them, in line order from the start bit; one with an error in its head is abandoned
behind its length field (section 9.2, R160). A bit that is 0 is dominant (R159). -/
def frameBits (f : Frame) : List Bool :=
  let head := false :: (bitsOf (contentionField f.cls f.sender) ++ bitsOf f.kind ++ bitsOf f.length)
  if frameHeadError f then head else head ++ bitsOfBytes f.payload ++ bitsOf f.crc ++ bitsOf f.endField

/-- The value of the last bit, and how many bits at the end have it. -/
def lastRun (bits : List Bool) : Bool × Nat :=
  match bits.reverse with
  | [] => (true, 0)
  | b :: rest => (b, (rest.takeWhile fun x => x == b).length + 1)

/-! ## The fields of a VIEW's flag byte (section 9.2) -/

/-- The flag byte of a VIEW. -/
def viewFlags (phase : Phase) (escalated established trouble : Bool) (mode : Mode) : Byte :=
  phase.code ++ BitVec.ofBool escalated ++ BitVec.ofBool established ++ BitVec.ofBool trouble ++ mode.viewBits
    ++ 0#1

/-- The phase bits of a VIEW's flag byte. -/
def flagsPhase (flags : Byte) : BitVec 2 := flags.extractLsb' 6 2

/-- The escalated bit of a VIEW's flag byte. -/
def flagsEscalated (flags : Byte) : Bool := flags.getLsbD 5

/-- The established bit of a VIEW's flag byte. -/
def flagsEstablished (flags : Byte) : Bool := flags.getLsbD 4

/-- The trouble bit of a VIEW's flag byte. -/
def flagsTrouble (flags : Byte) : Bool := flags.getLsbD 3

/-- The station mode bits of a VIEW's flag byte. -/
def flagsMode (flags : Byte) : BitVec 2 := flags.extractLsb' 1 2

/-- The severity and edge byte of a FAULT-NOTICE (section 9.2). -/
def severityEdge (v : Severity) (onset : Bool) : Byte :=
  (v.code <<< 6) ||| (if onset then 1 else 0)

/-! ## Levels of a contact -/

/-- The level of the two levels that is not this one. -/
def otherLevel (l : Level) : Level :=
  match l with
  | .broken => .made
  | .made => .broken

end Sys2Proof.Machine
end

