-- ==== Sys2Proof/Machine/Flags.lean ====
section
/-! DEFINITION. The flags, levels and orders that follow from other state: the output lines, the drives of the points, the
trip level, the transmitter's condition, the epoch order. -/

namespace Sys2Proof.Machine

/-! ## Epochs -/

/-- Epoch a is ahead of epoch b (00_scope.md, "Epoch order"). -/
def ahead (a b : Epoch) : Bool :=
  let d := (a - b).toNat
  decide (1 ≤ d) && decide (d ≤ 32767)

/-! ## Fault severities and the output lines -/

/-- A severity that reaches the output lines and the bus: TROUBLE or CRITICAL (R181, R182). -/
def Severity.serious (v : Severity) : Bool :=
  match v with
  | .trouble | .critical => true
  | _ => false

/-- TROUBLE is active while the table holds a TROUBLE or CRITICAL entry or the latch is set (R181). -/
def troubleLevel (active : List FaultEntry) (latch : Bool) : Bool :=
  active.any (fun e => e.severity.serious) || latch

/-- CRITICAL is active while the table holds a CRITICAL entry (R181). -/
def criticalLevel (active : List FaultEntry) : Bool :=
  active.any fun e => e.severity == .critical

/-- The FLU with both output lines driven from its own state (R181). -/
def Flu.drive (f : Flu) : Flu :=
  { f with troubleLine := troubleLevel f.active f.latch, criticalLine := criticalLevel f.active }

/-! ## Detection lines -/

/-- A line in an active state: ACTIVE or CLEARING (section 2.2). -/
def LineState.inActive (l : LineState) : Bool :=
  match l with
  | .active | .clearing => true
  | _ => false

/-- A line in a fault state (section 2.2). -/
def LineState.inFault (l : LineState) : Bool :=
  match l with
  | .openFault | .shortFault => true
  | _ => false

/-- The reading a band gives with the polarity of the line (R18). -/
def readingOf (normallyClosed : Bool) (band : Band) : Reading :=
  match band with
  | .openBand => .openCircuit
  | .shortBand => .shortCircuit
  | .contactBand => if normallyClosed then .normal else .active
  | .quiescentBand => if normallyClosed then .active else .normal

/-! ## Points -/

/-- The drive of a damper follows its demand alone (R112). -/
def damperDrive (energiseToShut : Bool) (d : Demand) : Bool :=
  match d with
  | .toOpen => !energiseToShut
  | .toShut => energiseToShut
  | _ => false

/-- The drive of a fan follows its state: energised in STARTING and RUNNING (R127). -/
def fanDrive (f : FanState) : Bool :=
  match f with
  | .starting | .running => true
  | _ => false

/-- The trip level of a fan from the filtered level of input B and the trip sense (R126). -/
def tripActive (tripWhenMade : Bool) (inputB : Level) : Bool :=
  match inputB with
  | .made => tripWhenMade
  | .broken => !tripWhenMade

/-- The state a damper takes from its filtered limits under REST (R113, R119). -/
def restState (a b : Level) : DamperState :=
  match a, b with
  | .made, .broken => .isOpen
  | .broken, .made => .isShut
  | .broken, .broken => .mid
  | .made, .made => .limitConflict

/-! ## The bus -/

/-- DUPLICATE-STATION is active while the duplicate timer runs (R171). -/
def Bsc.duplicateActive (b : Bsc) : Bool :=
  b.duplicate.isSome

/-- The transmitter is halted while LINK-STUCK is active (R172, R173). -/
def Bsc.halted (b : Bsc) : Bool :=
  b.linkStuck

end Sys2Proof.Machine
end

