-- ==== Sys2Proof/Machine/Faults.lean ====
section
/-! DEFINITION. Fault reports and the Transmit Queue: what the FLU does with an onset and a clear (R177 to R182), a trace
entry (R184), a bulletin handed to the BSC (R163 to R165), and the two joined: a report with its FAULT-NOTICE, a
bulletin with its TX-FAILED. -/

namespace Sys2Proof.Machine

/-! ## The FLU's own records -/

/-- The place of a kind in the table of severities: its code less one. -/
def FaultKind.index (k : FaultKind) : Fin 21 :=
  ⟨k.code - 1, by cases k <;> decide⟩

/-- The severity of a kind, read when the FLU takes a report; two kinds are fixed at CRITICAL (R177). -/
def State.severity (s : State) (k : FaultKind) : Severity :=
  match k with
  | .configBad | .duplicateStation => .critical
  | _ => s.flu.severities[k.index]

/-- One entry written into the Sequence Trace at the write position, with the next serial and the time since
start (R184). -/
def State.trace (s : State) (kind : TraceKind) (subject value1 value2 : Byte) : State :=
  s.withFlu { s.flu with
    trace := put s.flu.trace s.flu.writePos
      (some { serial := s.flu.nextSerial, time := s.now, kind := kind, subject := subject, value1 := value1,
              value2 := value2 })
    writePos := s.flu.writePos + 1
    nextSerial := s.flu.nextSerial + 1 }

/-- Whether the Active Fault Table holds an entry of this kind and subject. -/
def Flu.holds (f : Flu) (k : FaultKind) (subject : Byte) : Bool :=
  f.active.any fun e => e.kind == k && e.subject == subject

/-- Whether the FLU takes an onset: not of a MASKED kind, and momentary or not yet in the table (R177, R178). -/
def State.onsetTaken (s : State) (k : FaultKind) (subject : Byte) (momentary : Bool) : Bool :=
  s.severity k != .masked && (momentary || !s.flu.holds k subject)

/-- The first record that an onset taken now would fill (R179). -/
def State.firstRecord (s : State) (k : FaultKind) (subject : Byte) (detail : Detail) : FirstRecord where
  kind := k
  subject := subject
  onset := s.now
  mode := s.prm.mode
  epoch := s.age.view.epoch
  phase := s.age.view.phase
  scenario := s.age.view.scenario
  step := s.age.view.step
  detail := detail

/-- The first records and the sets after an onset of a severity is taken (R179, R180). -/
def Flu.remember (f : Flu) (v : Severity) (r : FirstRecord) : Flu :=
  match v with
  | .masked => f
  | .note => { f with noteSeen := insert f.noteSeen r.kind.code }
  | .trouble =>
    match f.firstTrouble with
    | none => { f with firstTrouble := some r }
    | some _ => { f with nextTrouble := insert f.nextTrouble r.kind.code }
  | .critical =>
    match f.firstCritical with
    | none => { f with firstCritical := some r }
    | some _ => { f with nextCritical := insert f.nextCritical r.kind.code }

/-- The Active Fault Table, FAULT-TABLE-FULL and the latch after an onset is taken (R178, R180). -/
def Flu.enter (f : Flu) (e : FaultEntry) (momentary : Bool) : Flu :=
  if momentary then { f with latch := f.latch || e.severity.serious }
  else if 32 ≤ f.active.length then { f with tableFull := true, latch := true }
  else { f with active := f.active ++ [e] }

/-- What the FLU records of an onset: table, first records, sets, lines and trace (R178 to R181, R184); nothing where
the onset is not taken. -/
def State.recordOnset (s : State) (k : FaultKind) (subject : Byte) (detail : Detail) (momentary : Bool) : State :=
  if s.onsetTaken k subject momentary then
    let v := s.severity k
    let entry : FaultEntry := { kind := k, subject := subject, severity := v, onset := s.now }
    (s.withFlu ((s.flu.enter entry momentary).remember v (s.firstRecord k subject detail)).drive).trace
      .faultOnset subject (byteOf k.code) v.code
  else s

/-- Whether the FLU takes a clear: not of a MASKED kind, and an entry to end is there (R177, R178). -/
def State.clearTaken (s : State) (k : FaultKind) (subject : Byte) : Bool :=
  s.severity k != .masked && s.flu.holds k subject

/-- What the FLU records of a clear: the entry removed, the lines, the trace (R178, R181). -/
def State.recordClear (s : State) (k : FaultKind) (subject : Byte) : State :=
  if s.clearTaken k subject then
    (s.withFlu ({ s.flu with active := s.flu.active.filter fun e => !(e.kind == k && e.subject == subject) }
      : Flu).drive).trace .faultClear subject (byteOf k.code) (s.severity k).code
  else s

/-! ## The Transmit Queue -/

/-- An entry placed in the queue by its class, behind the entries of its class (R163). -/
def txPlace (e : TxEntry) : List TxEntry → List TxEntry
  | [] => [e]
  | x :: rest => if x.bulletin.cls ≤ e.bulletin.cls then x :: txPlace e rest else e :: x :: rest

/-- The displacement candidate and the queue without it: the last entry that is not in an attempt, which is the youngest
of the least urgent class among those entries (R165). -/
def txDisplace : List TxEntry → Option (TxEntry × List TxEntry)
  | [] => none
  | x :: rest =>
    match txDisplace rest with
    | some (candidate, kept) => some (candidate, x :: kept)
    | none => if x.inAttempt then none else some (x, rest)

/-- The queue with its VIEW replaced in place by a newer one (R164). -/
def txReplaceView (q : List TxEntry) (b : Bulletin) : List TxEntry :=
  q.map fun e => if e.bulletin.isView then { e with bulletin := b, attempts := 0 } else e

/-- Whether a VIEW stands in the queue. -/
def txHoldsView (q : List TxEntry) : Bool :=
  q.any fun e => e.bulletin.isView

/-- Whether the VIEW in the queue is in an attempt. -/
def txViewInAttempt (q : List TxEntry) : Bool :=
  q.any fun e => e.bulletin.isView && e.inAttempt

/-- The BSC after a bulletin is handed to its Transmit Queue, and the bulletin lost to an overflow (R163 to R165). -/
def Bsc.accept (c : Bsc) (b : Bulletin) (now : Nat) : Bsc × Option Bulletin :=
  let e : TxEntry := { bulletin := b, queuedAt := now, attempts := 0, inAttempt := false }
  if b.isView && txHoldsView c.queue then
    ({ c with
        queue := txReplaceView c.queue b
        attempt := if txViewInAttempt c.queue then c.attempt.map fun a => { a with replaced := true }
          else c.attempt }, none)
  else if c.queue.length < 8 then ({ c with queue := txPlace e c.queue }, none)
  else
    match txDisplace c.queue with
    | none => (c, some b)
    | some (candidate, kept) =>
      if b.cls < candidate.bulletin.cls then ({ c with queue := txPlace e kept }, some candidate.bulletin)
      else (c, some b)

/-- The state after a bulletin is handed to the BSC, and the bulletin lost; in STARTING and CONFIG-FAULT the BSC accepts
none (R175). -/
def State.handBulletin (s : State) (b : Bulletin) : State × Option Bulletin :=
  if s.isActive then
    let r := s.bsc.accept b s.cfl.ticks
    (s.withBsc r.1, r.2)
  else (s, none)

/-! ## Reports with their notices -/

/-- The FAULT-NOTICE of an onset or a clear (R182). -/
def noticeOf (k : FaultKind) (subject : Byte) (v : Severity) (onset : Bool) : Bulletin :=
  .faultNotice (byteOf k.code) subject (severityEdge v onset)

/-- A FAULT-NOTICE handed to the BSC. A notice lost to overflow is reported as TX-FAILED, and that report is recorded but
makes no notice of its own (log 8). -/
def State.queueNotice (s : State) (b : Bulletin) : State :=
  match s.handBulletin b with
  | (s', none) => s'
  | (s', some lost) => s'.recordOnset .txFailed (byteOf lost.kindCode.toNat) (.lost .overflow) true

/-- An onset taken by the FLU, with the FAULT-NOTICE of a TROUBLE or CRITICAL one (R178, R182). -/
def State.takeOnset (s : State) (k : FaultKind) (subject : Byte) (detail : Detail) (momentary : Bool) : State :=
  let s' := s.recordOnset k subject detail momentary
  if s.onsetTaken k subject momentary && (s.severity k).serious then
    s'.queueNotice (noticeOf k subject (s.severity k) true)
  else s'

/-- A fault by its kind's code and its subject. -/
def FaultKind.named (k : FaultKind) (subject : Byte) : FaultName where
  code := byteOf k.code
  subject := subject

/-- A clear taken by the FLU, with the FAULT-NOTICE of a TROUBLE or CRITICAL one (R178, R182). -/
def State.takeClear (s : State) (k : FaultKind) (subject : Byte) : State :=
  let s' := s.recordClear k subject
  if s.clearTaken k subject && (s.severity k).serious then
    s'.queueNotice (noticeOf k subject (s.severity k) false)
  else s'

/-- A report taken by the FLU as one event (R177, R178). -/
def State.takeFault (s : State) (r : FaultReport) : State :=
  match r with
  | .onset k subject detail momentary => s.takeOnset k subject detail momentary
  | .clear k subject => s.takeClear k subject

/-! ## Reports on the way -/

/-- Whether the onset of a condition fault reaches the FLU late (R178; log 51). -/
def Flu.isLate (f : Flu) (k : FaultKind) (subject : Byte) : Bool :=
  decide (k.named subject ∈ f.late)

/-- A report is the onset of a condition fault that a list of late ones names (R178; log 51). -/
def FaultReport.isLate (r : FaultReport) (late : List FaultName) : Bool :=
  match r with
  | .onset k subject _ momentary => !momentary && decide (k.named subject ∈ late)
  | .clear .. => false

/-- The groups with one more member behind those of the last group. -/
def behindLast {α : Type} (groups : List (List α)) (x : α) : List (List α) :=
  groups.dropLast ++ [groups.getLast?.getD [] ++ [x]]

/-- A report handed to the FLU: taken at once; or on the way where it is the onset of a fault named late, so that a clear can
overtake it (R178), or where the same event of its block has put a late onset on the way before it, so that the order handed
stays (R177; log 51). -/
def State.reportFault (s : State) (r : FaultReport) (behind : Bool) : State :=
  if behind then s.withFlu { s.flu with waiting := behindLast s.flu.waiting r }
  else if r.isLate s.flu.late then s.withFlu { s.flu with waiting := s.flu.waiting ++ [[r]] }
  else s.takeFault r

/-- The reports that one event of a block hands together, in their order: those handed behind a late onset wait with it (R177;
log 51). -/
def State.handTogether (s : State) (reports : List FaultReport) (behind : Bool) : State :=
  match reports with
  | [] => s
  | r :: rest => (s.reportFault r behind).handTogether rest (behind || r.isLate s.flu.late)

/-- The reports of a change about one subject: the clears and then the onsets of condition faults, with one detail. -/
def changeReports (subject : Byte) (detail : Detail) (clears onsets : List FaultKind) : List FaultReport :=
  clears.map (FaultReport.clear · subject) ++ onsets.map (FaultReport.onset · subject detail false)

/-- An onset reported to the FLU, alone or behind a late onset of the same event (R177, R178; log 51). -/
def State.onset (s : State) (k : FaultKind) (subject : Byte) (detail : Detail) (momentary : Bool)
    (behind : Bool := false) : State :=
  s.reportFault (.onset k subject detail momentary) behind

/-- A clear reported to the FLU (R178). -/
def State.clear (s : State) (k : FaultKind) (subject : Byte) : State :=
  s.reportFault (.clear k subject) false

/-- The reports on the way taken by the FLU at a tick, each group up to the first onset that the tick names as late still; what is
left of a group stays on the way (R177, R178; log 51). The time in the record, the entry and the trace is that of this tick, at
which the FLU takes the onset: the spec leaves open which time a late onset bears (R178, R179, R184), and this is the model's
choice (log 51). -/
def State.takeLateOnsets (s : State) (late : List FaultName) : State :=
  let arrives (r : FaultReport) : Bool := !r.isLate late
  let arrived := s.flu.waiting.flatMap fun group => group.takeWhile arrives
  let left := (s.flu.waiting.map fun group => group.dropWhile arrives).filter fun group => !group.isEmpty
  sweep arrived State.takeFault (s.withFlu { s.flu with late := late, waiting := left })

/-! ## Bulletins with their TX-FAILED -/

/-- A bulletin queued by a block; one lost to overflow is reported as TX-FAILED (R165), behind a late onset of the same event of
the BSC where there is one (R177; log 51). -/
def State.queue (s : State) (b : Bulletin) (behind : Bool := false) : State :=
  match s.handBulletin b with
  | (s', none) => s'
  | (s', some lost) => s'.onset .txFailed (byteOf lost.kindCode.toNat) (.lost .overflow) true behind

end Sys2Proof.Machine
end

