-- ==== Sys2Proof/Machine/Bus.lean ====
section
/-! DEFINITION. The VIEW as it is queued (R83, R164), the refresh of the own presence entry by it (R74), and the
SYNC-REQUEST with its holdoff (R170). -/

namespace Sys2Proof.Machine

/-- The VIEW this station would queue now: the view, the mode, the TROUBLE line and the digest (R67, R83). -/
def State.viewBulletin (s : State) : Bulletin :=
  let v := s.age.view
  .view v.epoch (viewFlags v.phase v.escalated v.established s.flu.troubleLine s.prm.mode) (zoneByte v.origin)
    (byteOf v.scenario.val) (byteOf v.step.val) (s.cfl.digest.getD 0)

/-- The last VIEW summary that the fields of a VIEW give (R71). -/
def summaryOf (epoch : Epoch) (flags origin scenario step : Byte) : Summary where
  epoch := epoch
  phase := flagsPhase flags
  escalated := flagsEscalated flags
  established := flagsEstablished flags
  origin := origin
  scenario := scenario
  step := step
  mode := flagsMode flags
  trouble := flagsTrouble flags

/-- The own presence entry with its summary taken from a VIEW just queued (R74). -/
def State.refreshOwnSummary (s : State) (b : Bulletin) : State :=
  match b with
  | .view e f o c k _ => s.setPresence s.number { s.presence s.number with summary := some (summaryOf e f o c k) }
  | _ => s

/-- A VIEW queued. The own summary follows where the VIEW was placed (log 34), and a bulletin lost to it, or the VIEW
itself where it was dropped, is reported (R164, R165). -/
def State.queueView (s : State) : State :=
  let b := s.viewBulletin
  match s.handBulletin b with
  | (s', none) => if s.isActive then s'.refreshOwnSummary b else s'
  | (s', some lost) =>
    let s'' := if lost.isView then s' else s'.refreshOwnSummary b
    s''.onset .txFailed (byteOf lost.kindCode.toNat) (.lost .overflow) true

/-- The sync holdoff interval, 1.0 s (R170). -/
def holdoffTime : Timer := startSeconds 1

/-- A SYNC-REQUEST queued at once whatever the holdoff: sync-due cleared and the holdoff started again (R170). -/
def State.queueSync (s : State) : State :=
  ((s.withBsc { s.bsc with syncDue := false, holdoff := holdoffTime }).queue .syncRequest)

/-- A SYNC-REQUEST becomes due after a receive loss: queued at once if the holdoff is stopped, else marked (R170). -/
def State.syncBecomesDue (s : State) (behind : Bool := false) : State :=
  match s.bsc.holdoff with
  | none => (s.withBsc { s.bsc with holdoff := holdoffTime }).queue .syncRequest behind
  | some _ => s.withBsc { s.bsc with syncDue := true }

/-- A receive loss: RX-LOSS reported and a SYNC-REQUEST due (R168, R169); its reports wait behind a late onset of the same event
where there is one (R177; log 51). -/
def State.receiveLoss (s : State) (behind : Bool := false) : State :=
  (s.onset .rxLoss 255 .none true behind).syncBecomesDue behind

end Sys2Proof.Machine
end

