-- ==== Sys2Proof/Machine/Points.lean ====
section
/-! DEFINITION. Damper and fan points and the flow-proof measurement (chapters 6 and 7): what each record does with each of
its events, and what a change hands to the reports, the fans and the FLU. -/

namespace Sys2Proof.Machine

/-! ## What a point hands on -/

/-- The report of a point: its state, and for a fan whether attempts remain (R120, R146). An UNUSED point has no state. -/
def PointRecord.report (r : PointRecord) : Option PointReport :=
  match r with
  | .unused .. => none
  | .damper d => some { state := .damper d.state, attemptsRemain := false }
  | .fan f => some { state := .fan f.state, attemptsRemain := decide (0 < f.attempts) }

/-- The state and demand of a point as the detail of its fault (R121, R147). -/
def PointRecord.detail (r : PointRecord) : Detail :=
  match r with
  | .unused .. => .none
  | .damper d => .point (.damper d.state) d.demand
  | .fan f => .point (.fan f.state) f.demand

/-- A point report handed to the STS, which takes it as its own event after those that wait (R120, R146; log 7). -/
def State.handReport (s : State) (p : PointId) (r : PointReport) : State :=
  s.withSts { s.sts with waiting := s.sts.waiting ++ [{ point := p, report := r }] }

/-- The report of a point handed to the STS (R120, R146). -/
def State.tellSts (s : State) (p : PointId) : State :=
  match (s.point p).report with
  | none => s
  | some r => s.handReport p r

/-- The POINT-STATE trace event of a point (R120, R146, R185). -/
def State.tracePoint (s : State) (p : PointId) : State :=
  match s.point p with
  | .unused .. => s
  | .damper d => s.trace .pointState (byteOf p.val) d.state.code d.demand.code
  | .fan f => s.trace .pointState (byteOf p.val) f.state.code f.demand.code

/-- What a change of a point's state hands on: the report and the trace event (R120, R146). -/
def State.reportPoint (s : State) (p : PointId) : State :=
  (s.tellSts p).tracePoint p

/-- The clears and then the onsets of a point's faults, with its state and demand as detail (R120, R121, R146, R147), all behind a
late onset of the same event where there is one (R177; log 51). A late onset stays on the way, and its clear can overtake it
(R178; log 51). -/
def State.pointFaults (s : State) (p : PointId) (clears onsets : List FaultKind) (behind : Bool := false) : State :=
  s.handTogether (changeReports (byteOf p.val) (s.point p).detail clears onsets) behind

/-- Whether an onset among these, of one subject, stays on the way, so that the later reports of the event wait behind it (R177;
log 51). -/
def Flu.holdsBack (f : Flu) (subject : Byte) (onsets : List FaultKind) : Bool :=
  onsets.any fun k => f.isLate k subject

/-- A fault kind, where a condition holds. -/
def kindIf (c : Bool) (k : FaultKind) : List FaultKind :=
  if c then [k] else []

/-! ## The fan record -/

/-- What an event makes of a fan's record, with the faults it clears and those it raises. -/
structure FanChange where
  record : Fan
  clears : List FaultKind := []
  onsets : List FaultKind := []

/-- The run-down timer started in full; a run-down of 0 expires at the next tick (R133). -/
def runDownTimer (tenths : Nat) : Timer :=
  some (max 1 (10 * tenths))

/-- The uncommanded timer started with 30 s (R136). -/
def uncommandedTime : Timer := startSeconds 30

/-- The uncommanded timer at an entry into STOPPED: started if the PMU holds the fan proven (R136). -/
def uncommandedAtStop (proven : Bool) : Timer :=
  if proven then uncommandedTime else none

/-- The record put into a state, its drive following the state (R127). -/
def Fan.enter (f : Fan) (state : FanState) : Fan :=
  { f with state := state, drive := fanDrive state }

/-- The record coasting down: STOPPING with its full run-down (R130, R135, R141). -/
def Fan.coast (f : Fan) : Fan :=
  { f.enter .stopping with prove := none, flow := none, run := runDownTimer f.runDown }

/-- The record entering QUEUED. -/
def Fan.toQueue (f : Fan) : Fan :=
  { f.enter .queued with run := none, uncommandedTimer := none }

/-- The clears of FAN-NO-FLOW and FAN-FLOW-LOST that a record with them active reports, FAN-NO-FLOW first where both are, an order
the spec leaves open (R130, R131; log 52). -/
def Fan.flowClears (f : Fan) : List FaultKind :=
  kindIf f.noFlow .fanNoFlow ++ kindIf f.flowLost .fanFlowLost

/-- A demand is a stop demand: STOP or REST (section 7.1). -/
def Demand.isStop (d : Demand) : Bool :=
  match d with
  | .stop | .rest => true
  | _ => false

/-- A demand change to RUN (R129). -/
def Fan.takeRun (f : Fan) : FanChange :=
  let g := { f with demand := .run, attempts := f.restarts }
  match f.state with
  | .stopped => { record := g.toQueue }
  | _ => { record := g }

/-- A demand change to a stop demand from RUN (R130). -/
def Fan.takeStop (f : Fan) (d : Demand) (proven : Bool) : FanChange :=
  let g := { f with demand := d, noFlow := false, flowLost := false }
  match f.state with
  | .queued => { record := { g.enter .stopped with uncommandedTimer := uncommandedAtStop proven }, clears := f.flowClears }
  | .starting | .running => { record := g.coast, clears := f.flowClears }
  | .noFlow =>
    { record := { g.enter .stopped with run := none, attempts := f.restarts,
                                        uncommandedTimer := uncommandedAtStop proven }
      clears := f.flowClears }
  | _ => { record := g, clears := f.flowClears }

/-- A demand change of a fan. A change between STOP and REST is recorded alone (R129, R130). -/
def Fan.takeDemand (f : Fan) (d : Demand) (proven : Bool) : FanChange :=
  if d.isStop then
    if f.demand.isStop then { record := { f with demand := d } } else f.takeStop d proven
  else f.takeRun

/-- A gain of proof (R131, R134, R136). -/
def Fan.takeProof (f : Fan) : FanChange :=
  match f.state with
  | .starting =>
    { record := { f.enter .running with prove := none, flow := none, noFlow := false, flowLost := false }
      clears := f.flowClears }
  | .running => { record := { f with flow := none } }
  | .stopped => { record := { f with uncommandedTimer := uncommandedTime } }
  | _ => { record := f }

/-- A loss of proof; in any state it ends uncommanded flow (R131, R134, R136). -/
def Fan.loseProof (f : Fan) : FanChange :=
  let g := { f with uncommanded := false }
  { record :=
      match f.state with
      | .running => { g with flow := startTenths f.flowLoss }
      | .stopped => { g with uncommandedTimer := none }
      | _ => g
    clears := kindIf f.uncommanded .fanUncommanded }

/-- The expiry of the prove timer in STARTING (R132). -/
def Fan.proveExpiry (f : Fan) : FanChange :=
  { record := { f.enter .noFlow with prove := none, run := runDownTimer f.runDown, noFlow := true }
    onsets := kindIf (!f.noFlow) .fanNoFlow }

/-- The expiry of the flow-loss timer in RUNNING (R132, R134). -/
def Fan.flowExpiry (f : Fan) : FanChange :=
  { record := { f.enter .noFlow with flow := none, run := runDownTimer f.runDown, flowLost := true }
    onsets := kindIf (!f.flowLost) .fanFlowLost }

/-- The expiry of the run-down timer: STOPPING acts on the demand (R133), NO-FLOW retries while attempts
remain (R132). -/
def Fan.runDownExpiry (f : Fan) (proven : Bool) : FanChange :=
  match f.state with
  | .stopping =>
    if f.demand.isStop then
      { record := { f.enter .stopped with run := none, uncommandedTimer := uncommandedAtStop proven } }
    else { record := f.toQueue }
  | .noFlow =>
    if 0 < f.attempts then { record := { f.toQueue with attempts := f.attempts - 1 } }
    else { record := { f with run := none } }
  | _ => { record := { f with run := none } }

/-- A trip event: TRIPPED from any state, every timer stopped (R135). -/
def Fan.trip (f : Fan) : FanChange :=
  { record := { f.enter .tripped with prove := none, flow := none, run := none, uncommandedTimer := none }
    onsets := [.fanTrip] }

/-- A trip clear: STOPPING with the full run-down (R135). -/
def Fan.tripClear (f : Fan) : FanChange :=
  { record := f.coast, clears := [.fanTrip] }

/-- The expiry of the uncommanded timer (R136). -/
def Fan.uncommandedExpiry (f : Fan) : FanChange :=
  { record := { f with uncommandedTimer := none, uncommanded := true }, onsets := [.fanUncommanded] }

/-- The grant of the start allowance (R140). -/
def Fan.grant (f : Fan) : FanChange :=
  { record := { f.enter .starting with prove := startTenths f.proveTime, uncommandedTimer := none, uncommanded := false }
    clears := kindIf f.uncommanded .fanUncommanded }

/-- A damper of the interlock set leaves OPEN: it joins the unmet set, and a STARTING or RUNNING fan is stopped (R138,
R141). -/
def Fan.damperLeft (f : Fan) (p : PointId) : FanChange :=
  let g := { f with unmet := insert f.unmet p.val }
  match f.state with
  | .starting | .running => { record := g.coast }
  | _ => { record := g }

/-- A damper of the interlock set enters OPEN: it leaves the unmet set (R138). -/
def Fan.damperEntered (f : Fan) (p : PointId) : FanChange :=
  { record := { f with unmet := remove f.unmet p.val } }

/-! ## The Start Queue and the grant -/

/-- The Start Queue after a fan's state changes: it joins the tail when it enters QUEUED and leaves when it leaves
QUEUED (R137). -/
def queueAfter (q : List PointId) (p : PointId) (before after : FanState) : List PointId :=
  if before != .queued && after == .queued then q ++ [p]
  else if before == .queued && after != .queued then q.filter fun x => x != p
  else q

/-- A fan's change written and handed on: record, Start Queue, faults, and the report with its trace where the state or
the attempts remaining changed (R137, R146). The POINT-STATE entry stands after those of the faults (log 5). -/
def State.commitFan (s : State) (p : PointId) (f : Fan) (c : FanChange) (behind : Bool := false) : State :=
  let s1 := s.withPtc { s.ptc with
    points := put s.ptc.points p (.fan c.record)
    startQueue := queueAfter s.ptc.startQueue p f.state c.record.state }
  let s2 := s1.pointFaults p c.clears c.onsets behind
  if c.record.state != f.state || c.record.attempts != f.attempts then s2.reportPoint p else s2

/-- A point is a fan in STARTING. -/
def PointRecord.isStarting (r : PointRecord) : Bool :=
  match r with
  | .fan f => f.state == .starting
  | _ => false

/-- A point is eligible for the start allowance: a QUEUED fan with an empty unmet set (R138). -/
def PointRecord.eligible (r : PointRecord) : Bool :=
  match r with
  | .fan f => f.state == .queued && f.unmet == 0
  | _ => false

/-- The fan in STARTING, if any. -/
def Ptc.startingFan (c : Ptc) : Option PointId :=
  (List.finRange 16).find? fun p => (c.points[p]).isStarting

/-- The fan the grant test would grant: the oldest eligible one, if no fan is STARTING and the start gap timer is
stopped (R139). -/
def Ptc.grantee (c : Ptc) : Option PointId :=
  if c.startingFan.isSome || c.gap.isSome then none
  else c.startQueue.find? fun p => (c.points[p]).eligible

/-- A measurement record restarted so many milliseconds after the last tick (R145; log 10). The stamps of the last edges stay,
so a falling edge may measure a high that began before the restart (log 26). -/
def Pmu.restart (m : Pmu) (millis : Nat) : Pmu :=
  { m with periods := [], start := none, lastHigh := none, lastLow := none, proven := false
           noEdge := some (millis + 4 * m.threshold) }

/-- The grant test (R139, R140); the clear of the fan granted waits behind a late onset of the same event where there is one (R177;
log 51). -/
def State.grantTest (s : State) (behind : Bool := false) : State :=
  match s.ptc.grantee with
  | none => s
  | some p =>
    match s.point p with
    | .fan f =>
      let s1 := s.withPtc { s.ptc with gap := startTenths s.ptc.startGap }
      (s1.setMeasure p ((s1.measure p).restart s.cfl.millis)).commitFan p f f.grant behind
    | _ => s

/-- A fan's change with the grant test where the fan joins the Start Queue or leaves STARTING (R139). -/
def State.settleFan (s : State) (p : PointId) (f : Fan) (c : FanChange) : State :=
  let s' := s.commitFan p f c
  if (c.record.state == .queued && f.state != .queued) || (f.state == .starting && c.record.state != .starting) then
    s'.grantTest (s.flu.holdsBack (byteOf p.val) c.onsets)
  else s'

/-- One fan takes a damper's change into or out of OPEN (R138). -/
def State.fanTakesDamper (s : State) (damper : PointId) (entered : Bool) (q : PointId) : State :=
  match s.point q with
  | .fan f =>
    if has f.interlock damper.val then
      s.commitFan q f (if entered then f.damperEntered damper else f.damperLeft damper)
    else s
  | _ => s

/-- Whether a damper's change leaves a fan that calls for the grant test: one stopped out of STARTING, or a QUEUED one
whose unmet set becomes empty (R139). -/
def PointRecord.wantsGrant (r : PointRecord) (damper : PointId) (entered : Bool) : Bool :=
  match r with
  | .fan f =>
    has f.interlock damper.val &&
      (if entered then f.state == .queued && f.unmet != 0 && remove f.unmet damper.val == 0 else f.state == .starting)
  | _ => false

/-- The fans of the station take a damper's change, each as its own event, and the grant test after them (R138). -/
def State.fansTakeDamper (s : State) (damper : PointId) (entered : Bool) (behind : Bool := false) : State :=
  let s' := sweep (List.finRange 16) (fun t q => t.fanTakesDamper damper entered q) s
  if (List.finRange 16).any fun q => (s.point q).wantsGrant damper entered then s'.grantTest behind else s'

/-! ## The damper record -/

/-- What an event makes of a damper's record, with the faults it clears and those it raises. -/
structure DamperChange where
  record : Damper
  clears : List FaultKind := []
  onsets : List FaultKind := []

/-- The target of a demand (section 6.1). -/
def targetOf (d : Demand) : DamperState :=
  match d with
  | .toShut => .isShut
  | _ => .isOpen

/-- The travel state toward the target of a demand (section 6.1). -/
def travelOf (d : Demand) : DamperState :=
  match d with
  | .toShut => .shutting
  | _ => .opening

/-- The limit input a demand names (section 6.1). -/
def demandedInput (d : Demand) : LimitInput :=
  match d with
  | .toShut => .inputB
  | _ => .inputA

/-- The filtered level of one limit. -/
def Damper.limit (d : Damper) (i : LimitInput) : Level :=
  match i with
  | .inputA => d.limitA
  | .inputB => d.limitB

/-- The filtered level of the demanded limit. -/
def Damper.demandedLimit (d : Damper) : Level :=
  d.limit (demandedInput d.demand)

/-- The filtered level of the opposite limit. -/
def Damper.oppositeLimit (d : Damper) : Level :=
  match demandedInput d.demand with
  | .inputA => d.limitB
  | .inputB => d.limitA

/-- Both filtered limits made. -/
def Damper.bothMade (d : Damper) : Bool :=
  d.limitA == .made && d.limitB == .made

/-- A demand names a target. -/
def Demand.isTarget (d : Demand) : Bool :=
  match d with
  | .toOpen | .toShut => true
  | _ => false

/-- A demand change to OPEN or SHUT: judged afresh against the new target (R114). -/
def Damper.takeTarget (d : Damper) (demand : Demand) : DamperChange :=
  let e := { d with demand := demand, drive := damperDrive d.energiseToShut demand, proofLost := false }
  let proof := kindIf d.proofLost .damperProofLost
  let jam := kindIf (d.state == .jammed) .damperJammed
  let limits := kindIf (d.state == .limitConflict) .damperLimits
  if e.bothMade then
    { record := { e with state := .limitConflict, travel := none }
      clears := proof ++ jam
      onsets := kindIf (d.state != .limitConflict) .damperLimits }
  else if e.demandedLimit == .made then
    { record := { e with state := targetOf demand, travel := none }, clears := proof ++ jam ++ limits }
  else
    { record := { e with state := travelOf demand, travel := startTenths d.travelLimit }
      clears := proof ++ jam ++ limits }

/-- A demand change to REST (R119). -/
def Damper.takeRest (d : Damper) (demand : Demand) : DamperChange :=
  let state := restState d.limitA d.limitB
  { record := { d with demand := demand, drive := damperDrive d.energiseToShut demand, travel := none,
                       proofLost := false, state := state }
    clears := kindIf d.proofLost .damperProofLost ++ kindIf (d.state == .jammed) .damperJammed
      ++ kindIf (d.state == .limitConflict && state != .limitConflict) .damperLimits
    onsets := kindIf (d.state != .limitConflict && state == .limitConflict) .damperLimits }

/-- A demand change of a damper; a demand equal to the one held changes nothing (R114, R119). -/
def Damper.takeDemand (d : Damper) (demand : Demand) : DamperChange :=
  if demand == d.demand then { record := d }
  else if demand.isTarget then d.takeTarget demand
  else d.takeRest demand

/-- Arrival at the target (R115, R116). -/
def Damper.arrive (d : Damper) : DamperChange :=
  { record := { d with state := targetOf d.demand, travel := none, proofLost := false }
    clears := kindIf (d.state == .jammed) .damperJammed ++ kindIf d.proofLost .damperProofLost }

/-- Entry into LIMIT-CONFLICT (R117). -/
def Damper.contradict (d : Damper) : DamperChange :=
  { record := { d with state := .limitConflict, travel := none }
    clears := kindIf (d.state == .jammed) .damperJammed
    onsets := [.damperLimits] }

/-- LIMIT-CONFLICT left at the break of one limit, under a target (R117; log 22). -/
def Damper.resolve (d : Damper) : DamperChange :=
  { record :=
      if d.demandedLimit == .made then { d with state := targetOf d.demand, travel := none }
      else { d with state := travelOf d.demand, travel := startTenths d.travelLimit }
    clears := [.damperLimits] }

/-- The demanded limit breaks at the target: proof is lost (R118). -/
def Damper.loseProof (d : Damper) : DamperChange :=
  { record := { d with state := travelOf d.demand, travel := startTenths d.travelLimit, proofLost := true }
    onsets := kindIf (!d.proofLost) .damperProofLost }

/-- The record with one filtered limit at a new level and its settle interval stopped (R111). -/
def Damper.setLimit (d : Damper) (i : LimitInput) (level : Level) : Damper :=
  match i with
  | .inputA => { d with limitA := level, settleA := none }
  | .inputB => { d with limitB := level, settleB := none }

/-- A limit event under REST sets the state anew (R119). -/
def Damper.restEvent (d : Damper) : DamperChange :=
  let state := restState d.limitA d.limitB
  { record := { d with state := state }
    clears := kindIf (d.state == .limitConflict && state != .limitConflict) .damperLimits
    onsets := kindIf (d.state != .limitConflict && state == .limitConflict) .damperLimits }

/-- A limit event under a target, with the record already holding the new level (R115 to R118). -/
def Damper.targetEvent (d : Damper) (i : LimitInput) (level : Level) : DamperChange :=
  if d.state == .limitConflict then
    if d.bothMade then { record := d } else d.resolve
  else if d.bothMade then d.contradict
  else if i == demandedInput d.demand then
    match d.state, level with
    | .opening, .made | .shutting, .made | .jammed, .made => d.arrive
    | .isOpen, .broken | .isShut, .broken => d.loseProof
    | _, _ => { record := d }
  else { record := d }

/-- A limit event (R111, R115 to R119). -/
def Damper.takeLimit (d : Damper) (i : LimitInput) (level : Level) : DamperChange :=
  let e := d.setLimit i level
  if d.demand.isTarget then e.targetEvent i level else e.restEvent

/-- The expiry of the travel timer in a travel state (R116). -/
def Damper.travelExpiry (d : Damper) : DamperChange :=
  match d.state with
  | .opening | .shutting => { record := { d with state := .jammed, travel := none }, onsets := [.damperJammed] }
  | _ => { record := { d with travel := none } }

/-- A damper's change written and handed on: record, faults, the report with its trace where the state changed, and the
fans where it passed into or out of OPEN (R120). -/
def State.settleDamper (s : State) (p : PointId) (d : Damper) (c : DamperChange) : State :=
  let s1 := (s.setPoint p (.damper c.record)).pointFaults p c.clears c.onsets
  if c.record.state == d.state then s1
  else
    let s2 := s1.reportPoint p
    let behind := s.flu.holdsBack (byteOf p.val) c.onsets
    if d.state == .isOpen then s2.fansTakeDamper p false behind
    else if c.record.state == .isOpen then s2.fansTakeDamper p true behind
    else s2

/-! ## Events of one point -/

/-- A point takes a demand change from the STS (R114, R119, R129, R130). -/
def State.takeDemand (s : State) (p : PointId) (demand : Demand) : State :=
  match s.point p with
  | .unused .. => s
  | .damper d => s.settleDamper p d (d.takeDemand demand)
  | .fan f => s.settleFan p f (f.takeDemand demand (s.measure p).proven)

/-- The fan's record takes a proof event from the PMU (R131, R134, R136). -/
def State.takeProof (s : State) (p : PointId) (gained : Bool) : State :=
  match s.point p with
  | .fan f => s.settleFan p f (if gained then f.takeProof else f.loseProof)
  | _ => s

/-! ## The measurement -/

/-- A falling edge: the high duration since the last rising edge (R143). -/
def Pmu.fall (m : Pmu) (stamp : Nat) : Pmu :=
  { m with
    level := .broken
    lastFall := some stamp
    lastHigh := match m.lastRise with
      | some rise => some (stamp - rise)
      | none => m.lastHigh }

/-- The period list with a complete period at its tail, held to the averaging count (R143). -/
def pushPeriod (periods : List (Nat × Nat)) (count : Nat) (p : Nat × Nat) : List (Nat × Nat) :=
  let longer := periods ++ [p]
  if count < longer.length then longer.drop 1 else longer

/-- A rising edge: the start of the first period, or the end of one and the start of the next (R143). -/
def Pmu.rise (m : Pmu) (stamp : Nat) : Pmu :=
  let e := { m with level := .made, lastRise := some stamp, start := some stamp }
  match m.start with
  | none => e
  | some _ =>
    let low := stamp - m.lastFall.getD stamp
    { e with lastLow := some low, periods := pushPeriod m.periods m.count (m.lastHigh.getD 0, low) }

/-- The average of the periods of a list, rounded down to whole milliseconds (R143). -/
def averageOf (periods : List (Nat × Nat)) : Nat :=
  (periods.map fun p => p.1 + p.2).sum / periods.length

/-- The judgement of proof after an edge: new where the list holds the full averaging count, else the one held (R143). -/
def Pmu.judge (m : Pmu) : Bool :=
  if m.periods.length == m.count then decide (averageOf m.periods ≤ m.threshold) else m.proven

/-- The record after a level change of input A stamped at a time, before its judgement, the no-edge timer started from the
edge, so many milliseconds after the last tick (R143; log 10). -/
def Pmu.edge (m : Pmu) (level : Level) (stamp millis : Nat) : Pmu :=
  let e := match level with
    | .made => m.rise stamp
    | .broken => m.fall stamp
  { e with noEdge := some (millis + 4 * m.threshold) }

/-- Whether an edge completes a period: a rising edge with a period in progress (R143). -/
def Pmu.completes (m : Pmu) (level : Level) : Bool :=
  level == .made && m.start.isSome

/-- A stamp is later than one that may be absent. -/
def laterThan (stamp : Nat) (last : Option Nat) : Bool :=
  match last with
  | none => true
  | some t => decide (t < stamp)

/-- Whether the PMU takes a change of input A: to the other level, held for at least 1 ms, and at least 1 ms after the last
change it took (R143; log 10). -/
def Pmu.takesEdge (m : Pmu) (level : Level) (stamp held : Nat) : Bool :=
  level != m.level && decide (1000 ≤ held) && laterThan stamp m.lastRise && laterThan stamp m.lastFall

/-- The time moved on to so many milliseconds after the last tick (R143; log 10). -/
def State.atMillis (s : State) (offset : Nat) : State :=
  s.withCfl { s.cfl with millis := max s.cfl.millis offset }

/-- An edge measured: the record, its judgement, and the proof event where the judgement changed (R143). -/
def State.measureEdge (s : State) (p : PointId) (level : Level) : State :=
  let m := s.measure p
  let e := m.edge level s.nowMs s.cfl.millis
  let proven := if m.completes level then e.judge else m.proven
  let s' := s.setMeasure p { e with proven := proven }
  if proven == m.proven then s' else s'.takeProof p proven

/-- A fan's input A changes to a level, so many milliseconds after the last tick, and holds it for so many microseconds
(R143). -/
def State.pulse (s : State) (p : PointId) (level : Level) (offset held : Nat) : State :=
  let t := s.atMillis offset
  if (t.measure p).takesEdge level t.nowMs held then t.measureEdge p level else t

/-- The no-edge timer expires: the list emptied, and proof lost where it was held (R144). -/
def State.noEdgeExpiry (s : State) (p : PointId) : State :=
  let m := s.measure p
  let s' := s.setMeasure p { m with periods := [], start := none, noEdge := none, proven := false }
  if m.proven then s'.takeProof p false else s'

end Sys2Proof.Machine
end

