-- ==== Sys2Proof/Machine/Steps.lean ====
section
/-! DEFINITION. The Step Sequencer: demand (R88 to R93), the step record and its tests (R94 to R107), and the step events
the Agreement Engine takes (R57). -/

namespace Sys2Proof.Machine

/-! ## Demand -/

/-- A demand entry of an action; LEAVE stands for REST where the spec gives no LEAVE (R87). -/
def entryOf (a : Action) (source : DemandSource) : DemandEntry :=
  match a with
  | .give d => { demand := d, source := source }
  | .leave => { demand := .rest, source := source }

/-- A point is a fan. -/
def PointRecord.isFan (r : PointRecord) : Bool :=
  match r with
  | .fan _ => true
  | _ => false

/-- A point is a damper. -/
def PointRecord.isDamper (r : PointRecord) : Bool :=
  match r with
  | .damper _ => true
  | _ => false

/-- A point is UNUSED. -/
def PointRecord.isUnused (r : PointRecord) : Bool :=
  match r with
  | .unused .. => true
  | _ => false

/-- The mode of a point's override group, AUTO for a point with none. -/
def State.groupMode (s : State) (p : PointId) : GroupMode :=
  match (s.sts.points[p]).group with
  | some g => (s.group g).mode
  | none => .auto

/-- The action of a point in the scenario of the step record, where it applies to a step reached (R89, fifth source). -/
def State.scenarioAction (s : State) (p : PointId) : Action :=
  let a := (s.sts.points[p]).scenarios[s.sts.scenario]
  if s.sts.phase == .running && (s.sts.established || decide (a.step ≤ s.sts.step)) then a.action else .leave

/-- The demand of a point by view, step and stand-down order: the fifth to the eighth source (R89). -/
def State.viewDemand (s : State) (p : PointId) : DemandEntry :=
  let program := s.sts.points[p]
  match s.scenarioAction p with
  | .give d => { demand := d, source := .scenario }
  | .leave =>
    if s.sts.phase != .idle && program.pre != .leave then entryOf program.pre .pre
    else if (s.point p).isDamper && s.sts.standDownPending then
      { demand := (s.sts.demands[p]).demand, source := .standDownHold }
    else entryOf program.normal .normal

/-- The demand of a point with the override source passed over (R89). -/
def State.plainDemand (s : State) (p : PointId) : DemandEntry :=
  if s.sts.viewSettled then s.viewDemand p
  else
    match s.prm.mode with
    | .joiningAfterReset => { demand := .rest, source := .rest }
    | .joiningAfterIsland => s.sts.frozen[p]
    | _ => s.viewDemand p

/-- The demand R89 gives a point. -/
def State.demandOf (s : State) (p : PointId) : DemandEntry :=
  if (s.point p).isUnused || !s.isActive then { demand := .rest, source := .rest }
  else
    match s.groupMode p, (s.point p).isFan with
    | .on, true => { demand := .run, source := .override }
    | .on, false => { demand := .toOpen, source := .override }
    | .off, true => { demand := .stop, source := .override }
    | .off, false => { demand := .toShut, source := .override }
    | .auto, _ => s.plainDemand p

/-- The Demand Table written from R89, and each changed demand handed to the PTC in increasing point number (R90). -/
def State.writeDemands (s : State) : State :=
  let old := s.sts.demands
  let new : Vector DemandEntry 16 := Vector.ofFn s.demandOf
  sweep (List.finRange 16)
    (fun t p => if (old[p]).demand == (new[p]).demand then t else t.takeDemand p (new[p]).demand)
    (s.withSts { s.sts with demands := new })

/-! ## Settlement -/

/-- A point is settled for the current step (R99). -/
def settled (e : DemandEntry) (r : Option PointReport) : Bool :=
  e.source == .override ||
    match r with
    | none => false
    | some r =>
      match r.state with
      | .damper .isOpen => e.demand == .toOpen
      | .damper .isShut => e.demand == .toShut
      | .damper .jammed | .damper .limitConflict => true
      | .fan .running => e.demand == .run
      | .fan .stopped => e.demand == .stop
      | .fan .tripped => true
      | .fan .noFlow => !r.attemptsRemain
      | _ => false

/-- A point is failed (R99). -/
def failed (r : Option PointReport) : Bool :=
  match r with
  | none => false
  | some r =>
    match r.state with
    | .damper .jammed | .damper .limitConflict | .fan .tripped => true
    | .fan .noFlow => !r.attemptsRemain
    | _ => false

/-- The row, and the step definition, of a step 1 to 8. -/
def rowOf (k : StepId) : Fin 8 :=
  ⟨k.val - 1, by omega⟩

/-- The definition of a step of a scenario (R87). -/
def State.stepDef (s : State) (scenario : ScenarioId) (k : StepId) : StepDef :=
  (s.sts.programs[scenario]).steps[rowOf k]

/-- A point belongs to a step of the scenario of the step record (R87). -/
def State.inStep (s : State) (k : StepId) (p : PointId) : Bool :=
  let a := (s.sts.points[p]).scenarios[s.sts.scenario]
  a.action != .leave && a.step == k

/-- The points of a step of the scenario of the step record (R87). -/
def State.pointsOf (s : State) (k : StepId) : List PointId :=
  (List.finRange 16).filter (s.inStep k)

/-- The STEP-DONE of the current step, its outcome judged from the points as they stand (R100, R101). -/
def State.stepDoneBulletin (s : State) : Bulletin :=
  let withFaults := (s.pointsOf s.sts.step).any fun p => failed (s.sts.reports[p])
  .stepDone s.sts.epoch (byteOf s.sts.scenario.val) (byteOf s.sts.step.val) (if withFaults then 1 else 0)

/-- The own settlement test passes (R100). -/
def State.ownSettles (s : State) : Bool :=
  s.sts.phase == .running && s.sts.step != 0 && !s.sts.established && s.sts.viewSettled
    && has (s.stepDef s.sts.scenario s.sts.step).roster s.number.val && !s.sts.ownSettled
    && (s.pointsOf s.sts.step).all fun p => settled (s.sts.demands[p]) (s.sts.reports[p])

/-- The repeat interval of a STEP-DONE, 1.0 s (R100, R101). -/
def repeatTime : Timer := startSeconds 1

/-- The own settlement test, with what it does when it passes (R100). -/
def State.settlementTest (s : State) : State :=
  if s.ownSettles then
    (s.withSts { s.sts with ownSettled := true, repeatTimer := repeatTime }).queue s.stepDoneBulletin
  else s

/-! ## The stand-down order -/

/-- A point meets its condition of the stand-down test by its last report; a point that is not a fan has none (R93). -/
def pointStoodDown (source : DemandSource) (normal : Action) (r : Option PointReport) : Bool :=
  source == .override ||
    match r with
    | none => true
    | some r =>
      match r.state with
      | .fan .noFlow | .fan .tripped => true
      | .fan .stopped => normal != .give .run
      | .fan .running | .fan .queued => normal == .give .run
      | .fan _ => false
      | .damper _ => true

/-- The stand-down test passes: every fan meets its condition (R93). -/
def State.stoodDown (s : State) : Bool :=
  (List.finRange 16).all fun p =>
    pointStoodDown (s.sts.demands[p]).source (s.sts.points[p]).normal s.sts.reports[p]

/-- The stand-down test, made while the flag is set: when it passes, the flag is cleared and demand recomputed (R93). -/
def State.standDownTest (s : State) : State :=
  if s.sts.standDownPending && s.stoodDown then
    (s.withSts { s.sts with standDownPending := false }).writeDemands.settlementTest
  else s

/-- A report is of a fan. -/
def PointReport.isFan (r : PointReport) : Bool :=
  match r.state with
  | .fan _ => true
  | .damper _ => false

/-- The STS takes a point report: the last report of the point, the own settlement test, and for a fan the stand-down test
(R93, R99, R100; log 7). -/
def State.takeReport (s : State) (w : WaitingReport) : State :=
  let s' := (s.withSts { s.sts with reports := put s.sts.reports w.point (some w.report) }).settlementTest
  if w.report.isFan then s'.standDownTest else s'

/-- The STS takes the reports that wait, oldest first. -/
def State.takeWaiting (s : State) : State :=
  sweep s.sts.waiting State.takeReport (s.withSts { s.sts with waiting := [] })

/-- The STS takes the reports that wait, and those that a stand-down test passed among them has the points hand; these find
the flag clear, so they make no more (log 7). -/
def State.takeReports (s : State) : State :=
  s.takeWaiting.takeWaiting

/-- What follows a recompute: the reports it has the points hand are taken, then the own settlement test is made and, while
the stand-down order is pending, the stand-down test (R90, R93, R100; log 7). -/
def State.closingTests (s : State) : State :=
  s.takeReports.settlementTest.standDownTest.takeReports

/-- The STS recomputes demand, with the tests after it (R90). -/
def State.recompute (s : State) : State :=
  s.writeDemands.closingTests

/-! ## Step events at the Agreement Engine -/

/-- The view is RUNNING at the epoch and scenario of the step record, so a step event is not stale (R57). -/
def State.stepEventFits (s : State) : Bool :=
  s.age.view.phase == .running && s.age.view.epoch == s.sts.epoch && s.age.view.scenario == s.sts.scenario

/-- The AGE takes a step-started event (R57). -/
def State.ageStepStarted (s : State) : State :=
  if s.stepEventFits then
    (s.withAge { s.age with view := { s.age.view with step := s.sts.step } }).queueView
  else s

/-- The AGE takes an established event (R57). -/
def State.ageEstablished (s : State) : State :=
  if s.stepEventFits then
    (s.withAge { s.age with view := { s.age.view with established := true } }).queueView
  else s

/-! ## Rows -/

/-- The row of a step. -/
def State.row (s : State) (k : StepId) : StepRow :=
  s.sts.rows[rowOf k]

/-- The state with the row of a step marked complete. -/
def State.completeRow (s : State) (k : StepId) (c : Completion) : State :=
  s.withSts { s.sts with rows := put s.sts.rows (rowOf k) { s.row k with completion := c } }

/-- The STEP-COMPLETE trace event of a step (R103, R185). -/
def State.traceComplete (s : State) (k : StepId) : State :=
  s.trace .stepComplete (byteOf k.val) (byteOf s.sts.scenario.val) (byteOf (size (s.row k).withFaults))

/-- The row of a step marked CAUGHT-UP, where it is open, with its STEP-COMPLETE trace event (R96, R106; log 27). -/
def State.catchUpRow (s : State) (k : StepId) : State :=
  if (s.row k).completion == .opened then (s.completeRow k .caughtUp).traceComplete k else s

/-- The steps from one number to another, both included, in increasing order. -/
def stepsFrom (first last : Nat) : List StepId :=
  (List.finRange 9).filter fun k => decide (first ≤ k.val) && decide (k.val ≤ last)

/-- The rows of the steps from one number to another marked CAUGHT-UP in increasing order (R96, R106). -/
def State.catchUpRows (s : State) (first last : Nat) : State :=
  sweep (stepsFrom first last) State.catchUpRow s

/-! ## Running a step -/

/-- The stations of a roster that are LIVE now (R98). -/
def State.liveOf (s : State) (roster : StationSet) : StationSet :=
  gather 32 fun n => has roster n.val && (s.presence n).state == .live

/-- A step begins: the record, the step-started event, the trace, demand computed anew (R98). -/
def State.beginStep (s : State) (k : StepId) : State :=
  let d := s.stepDef s.sts.scenario k
  let expected := s.liveOf d.roster
  let s1 := s.withSts { s.sts with
    step := k, expected := expected, stepTimer := startTenths d.timeout, ownSettled := false, repeatTimer := none,
    pendingExpiry := false }
  (s1.ageStepStarted.trace .stepStarted (byteOf k.val) (byteOf s.sts.scenario.val) (byteOf (size expected))).writeDemands

/-- The barrier test passes; during the joining hold it is not made (R103, R107). -/
def State.barrierPasses (s : State) : Bool :=
  s.sts.viewSettled && s.sts.phase == .running && s.sts.step != 0 && (s.row s.sts.step).completion == .opened
    && s.sts.expected &&& ~~~(s.row s.sts.step).heard == 0

/-- The scenario of the step record becomes established (R103). -/
def State.establish (s : State) : State :=
  (s.withSts { s.sts with established := true, expected := 0, pendingExpiry := false }).ageEstablished

/-- The current row marked BARRIER, with its timers stopped and its trace event (R103). -/
def State.markBarrier (s : State) : State :=
  let s1 := s.completeRow s.sts.step .barrier
  (s1.withSts { s1.sts with stepTimer := none, repeatTimer := none }).traceComplete s.sts.step

/-- Whether the current step is not the last of its scenario. -/
def State.stepsRemain (s : State) : Bool :=
  decide (s.sts.step.val < (s.sts.programs[s.sts.scenario]).stepCount) && decide (s.sts.step.val < 8)

/-- The step after the current one. -/
def State.nextStep (s : State) : StepId :=
  s.sts.step + 1

/-- A step starts: it begins, then the barrier test, which may start the next, and last the tests of the recompute (R98,
R103; log 7). The fuel bounds the chain of steps; a scenario has at most eight. -/
def State.startStepFuel : Nat → State → StepId → State
  | 0, s, _ => s
  | fuel + 1, s, k =>
    let s1 := s.beginStep k
    let s2 :=
      if s1.barrierPasses then
        let s' := s1.markBarrier
        if s'.stepsRemain then State.startStepFuel fuel s' s'.nextStep else s'.establish
      else s1
    s2.closingTests

/-- A step starts (R98). -/
def State.startStep (s : State) (k : StepId) : State :=
  State.startStepFuel 9 s k

/-- After the current step is complete: the next step starts, or the scenario is established (R103, R105). -/
def State.advance (s : State) : State :=
  if s.stepsRemain then s.startStep s.nextStep else s.establish

/-- The barrier test (R103). -/
def State.barrierTest (s : State) : State :=
  if s.barrierPasses then s.markBarrier.advance else s

/-- The stations of the expected set not in the heard set of the current row (R105). -/
def State.missing (s : State) : StationSet :=
  s.sts.expected &&& ~~~(s.row s.sts.step).heard

/-- The expiry of the step timer acted on: the step is forced (R105). -/
def State.forceStep (s : State) : State :=
  let missing := s.missing
  let s1 := s.completeRow s.sts.step .forced
  let s2 := s1.withSts { s1.sts with stepTimer := none, repeatTimer := none, pendingExpiry := false }
  let s3 := s2.onset .stepForced (byteOf s.sts.step.val) (.step s.sts.scenario missing) true
  (s3.trace .stepForced (byteOf s.sts.step.val) (byteOf s.sts.scenario.val) (byteOf (size missing))).advance

/-- A step catch-up (R106). -/
def State.catchUp (s : State) (epoch : Epoch) (scenario : ScenarioId) (t : StepId) (established : Bool) : State :=
  if s.sts.phase != .running || s.sts.epoch != epoch || s.sts.scenario != scenario then s
  else if decide (t ≤ s.sts.step) && !(established && !s.sts.established) then s
  else if established then
    let s1 := s.catchUpRows s.sts.step.val t.val
    ((s1.withSts { s1.sts with
      stepTimer := none, repeatTimer := none, expected := 0, established := true, step := t,
      pendingExpiry := false }).ageEstablished).recompute
  else (s.catchUpRows s.sts.step.val (t.val - 1)).startStep t

/-! ## View changes, modes, presence -/

/-- The stand-down order at a view change (R93). -/
def pendingAfter (pending : Bool) (previous new : Phase) : Bool :=
  match new with
  | .idle => pending || previous != .idle
  | _ => false

/-- The STS acts on the phase change of a view change: the stand-down order is set or cleared (R93). -/
def State.actOnPhase (s : State) (previous new : Phase) : State :=
  s.withSts { s.sts with standDownPending := pendingAfter s.sts.standDownPending previous new }

/-- The step state before it is rebuilt for a view: the table cleared, the running step abandoned, epoch, scenario and phase
taken from the view (R94 to R96; log 28, log 37). -/
def State.clearSteps (s : State) (v : View) : State :=
  s.withSts { s.sts with
    rows := Vector.replicate 8 StepRow.empty, epoch := v.epoch, scenario := v.scenario, phase := v.phase,
    pendingExpiry := false, established := false, stepTimer := none, repeatTimer := none, expected := 0 }

/-- The step state rebuilt from the beginning of the adopted program, by the phase of the view (R96). -/
def State.enterProgram (s : State) (v : View) : State :=
  let s1 := s.clearSteps v
  match v.phase with
  | .running =>
    if v.established then
      let s2 := s1.catchUpRows 1 (s.sts.programs[v.scenario]).stepCount
      (s2.withSts { s2.sts with step := v.step, established := true }).ageEstablished
    else (s1.catchUpRows 1 (v.step.val - 1)).startStep v.step
  | _ => s1.withSts { s1.sts with step := 0, ownSettled := false }

/-- A view change that alters the epoch or the scenario, or is a restart: the step state is rebuilt, and a step that starts
makes its own recompute and tests under the stand-down order as it stood; then the phase change is acted on and demand is
recomputed (R96). The view of a restart stands at step 1 (R53), so no row is caught up. -/
def State.rebuildSteps (s : State) (v : View) : State :=
  ((s.enterProgram v).actOnPhase s.sts.phase v.phase).recompute

/-- The STS takes a view change from the AGE (R96, R97). An IDLE view at another epoch is taken under R96 (log 47). -/
def State.takeView (s : State) (restart : Bool) : State :=
  let v := s.age.view
  if restart || v.epoch != s.sts.epoch || v.scenario != s.sts.scenario then s.rebuildSteps v
  else
    let s1 := (s.withSts { s.sts with phase := v.phase }).actOnPhase s.sts.phase v.phase
    if v.phase == .running && (decide (s.sts.step < v.step) || (v.established && !s.sts.established)) then
      s1.catchUp v.epoch v.scenario v.step v.established
    else s1.recompute

/-- The end of the joining hold, once: the flag set, demand computed anew, a pending expiry acted on or the barrier test made,
and last the tests of the recompute (R92, R107; log 7). -/
def State.settleView (s : State) : State :=
  if s.sts.viewSettled then s
  else
    let s1 := (s.withSts { s.sts with viewSettled := true }).writeDemands
    let s2 := if s1.sts.pendingExpiry then s1.forceStep else s1.barrierTest
    s2.closingTests

/-- The demand R89 gives a point with the override source and the joining sources passed over (R91). A damper under override
with the stand-down order pending freezes the demand its entry holds, the override's (log 45). -/
def State.frozenDemand (s : State) (p : PointId) : DemandEntry :=
  if (s.point p).isUnused then { demand := .rest, source := .rest } else s.viewDemand p

/-- The frozen demands captured at an entry into JOINING after island (R91). -/
def State.freeze (s : State) : State :=
  s.withSts { s.sts with frozen := Vector.ofFn s.frozenDemand }

/-- The STS takes a mode change from the PRM (R82, R90 to R92). -/
def State.takeMode (s : State) : State :=
  match s.prm.mode with
  | .joiningAfterReset => (s.withSts { s.sts with viewSettled := false }).recompute
  | .joiningAfterIsland => (s.freeze.withSts { s.freeze.sts with viewSettled := false }).recompute
  | .onLine => s.settleView.recompute
  | _ => s.recompute

/-- The STS takes a peer's change out of LIVE (R104). -/
def State.stationLost (s : State) (n : StationId) : State :=
  (s.withSts { s.sts with expected := remove s.sts.expected n.val }).barrierTest

/-- Whether the STS records a STEP-DONE (R102). -/
def State.recordsDone (s : State) (epoch : Epoch) (scenario step : Byte) : Bool :=
  s.sts.phase == .running && epoch == s.sts.epoch && scenario.toNat == s.sts.scenario.val
    && decide (1 ≤ step.toNat) && decide (step.toNat ≤ (s.sts.programs[s.sts.scenario]).stepCount)

/-- The row of a step with a STEP-DONE recorded in it (R102). -/
def StepRow.record (r : StepRow) (sender : StationId) (outcome : Byte) : StepRow :=
  { r with heard := insert r.heard sender.val
           withFaults := if outcome == 0 then remove r.withFaults sender.val else insert r.withFaults sender.val }

/-- The STS takes a STEP-DONE (R102). -/
def State.takeStepDone (s : State) (sender : StationId) (epoch : Epoch) (scenario step outcome : Byte) : State :=
  if s.recordsDone epoch scenario step then
    match index 9 step.toNat with
    | none => s
    | some k =>
      let s1 := s.withSts { s.sts with rows := put s.sts.rows (rowOf k) ((s.row k).record sender outcome) }
      if k == s.sts.step then s1.barrierTest else s1
  else s

end Sys2Proof.Machine
end

