-- ==== Sys2Proof/Machine/Zones.lean ====
section
/-! DEFINITION. The Zone Table Unit: condition changes (R4), reports heard (R5, R6), staleness marks (R7), the rotation
(R10) and the alarm notices it hands (R12 to R15). -/

namespace Sys2Proof.Machine

/-- A notice handed toward the Agreement Engine (section 1.4). -/
inductive Notice where
  | home (zone : ZoneId)
  | copy (zone : ZoneId)
deriving DecidableEq, Repr

/-! ## Reading the table -/

/-- The rank of a zone; 0, below every rank, for one out of use (R1, R16). -/
def State.rank (s : State) (z : ZoneId) : Nat :=
  match (s.zone z).cfg with
  | some c => c.rank
  | none => 0

/-- A zone is in use (R1). -/
def State.inUse (s : State) (z : ZoneId) : Bool :=
  (s.zone z).cfg.isSome

/-- A zone is in use and its entry holds ALARM. -/
def State.inAlarm (s : State) (z : ZoneId) : Bool :=
  s.inUse z && (s.zone z).condition == .alarm

/-- An entry of copy state HOME. -/
def State.isHome (s : State) (z : ZoneId) : Bool :=
  (s.zone z).copy == .home

/-- A zone placed in a list ordered by decreasing rank. -/
def rankPlace (s : State) (z : ZoneId) : List ZoneId → List ZoneId
  | [] => [z]
  | x :: rest => if s.rank x < s.rank z then z :: x :: rest else x :: rankPlace s z rest

/-- Zones in order of decreasing rank. -/
def State.byRank (s : State) (zones : List ZoneId) : List ZoneId :=
  zones.foldr (rankPlace s) []

/-- The HOME zones holding ALARM, in order of decreasing rank (R13, R14). -/
def State.homeAlarms (s : State) : List ZoneId :=
  s.byRank ((List.finRange 64).filter fun z => s.isHome z && (s.zone z).condition == .alarm)

/-- The in-use zones that are not HOME and hold ALARM, in order of decreasing rank (R14). -/
def State.copyAlarms (s : State) : List ZoneId :=
  s.byRank ((List.finRange 64).filter fun z => !s.isHome z && s.inAlarm z)

/-- The in-use zones holding ALARM, in order of decreasing rank (R40). -/
def State.alarms (s : State) : List ZoneId :=
  s.byRank ((List.finRange 64).filter s.inAlarm)

/-! ## Changes and reports -/

/-- A condition change of a home zone taken by the ZTU (R4, R9, R12). -/
def State.takeCondition (s : State) (z : ZoneId) (c : Condition) : State × List Notice :=
  let e := s.zone z
  if s.isHome z && e.condition != c then
    ((s.setZone z { e with condition := c, lastReport := some s.now }).queue (.zoneReport (byteOf z.val) c.code),
      if c == .alarm && s.prm.mode.joined then [.home z] else [])
  else (s, [])

/-- Whether the ZTU accepts a ZONE-REPORT for a zone from a sender (R5). -/
def State.acceptsReport (s : State) (sender : StationId) (z : ZoneId) : Bool :=
  match (s.zone z).cfg with
  | none => false
  | some c => !s.isHome z && c.home == sender

/-- An accepted ZONE-REPORT (R6, R15). -/
def State.acceptReport (s : State) (z : ZoneId) (c : Condition) : State × List Notice :=
  let e := s.zone z
  (s.setZone z { e with condition := c, copy := .current, lastReport := some s.now },
    if c == .alarm && e.condition != .alarm && s.prm.mode.joined then [.copy z] else [])

/-- The ZTU takes a ZONE-REPORT (R5, R6). -/
def State.takeZoneReport (s : State) (sender : StationId) (zone condition : Byte) : State × List Notice :=
  match index 64 zone.toNat, Condition.ofCode condition with
  | some z, some c => if s.acceptsReport sender z then s.acceptReport z c else (s, [])
  | _, _ => (s, [])

/-- An entry after a staleness mark for a station (R7). -/
def ZoneEntry.mark (e : ZoneEntry) (n : StationId) : ZoneEntry :=
  match e.cfg with
  | some c => if c.home == n && e.copy == .current then { e with copy := .stale } else e
  | none => e

/-- The ZTU takes a staleness mark (R7). -/
def State.markZones (s : State) (n : StationId) : State :=
  s.withZtu { s.ztu with zones := Vector.ofFn fun z => (s.zone z).mark n }

/-- The first item after a position that passes a test, in a table of that size, wrapping round; from 0 where there is no
position (R10, R153). -/
def rotate {n : Nat} (position : Option (Fin n)) (test : Fin n → Bool) : Option (Fin n) :=
  match position with
  | none => (List.finRange n).find? test
  | some p =>
    match (List.finRange n).find? fun z => decide (p < z) && test z with
    | some z => some z
    | none => (List.finRange n).find? test

/-- The rotation report at a VIEW period event (R10). -/
def State.rotationReport (s : State) : State :=
  match rotate s.ztu.rotation s.isHome with
  | none => s
  | some z =>
    let s' := s.withZtu { s.ztu with
      zones := put s.ztu.zones z { s.zone z with lastReport := some s.now }, rotation := some z }
    s'.queue (.zoneReport (byteOf z.val) (s.zone z).condition.code)

/-- The notices of a phase notice (R13). -/
def State.phaseNotices (s : State) : List Notice :=
  s.homeAlarms.map .home

/-- The notices of a join-end notice: home, then copy (R14). -/
def State.joinEndNotices (s : State) : List Notice :=
  s.homeAlarms.map .home ++ s.copyAlarms.map .copy

end Sys2Proof.Machine
end

