-- ==== Sys2Proof/Machine/Lines.lean ====
section
/-! DEFINITION. The Line Input Unit: the detection-line state machine (R18 to R25), isolation (R26, R27), zone conditions
(R28, R29), the walk test (R30, R31), command lines and requested group modes (R32 to R35). -/

namespace Sys2Proof.Machine

/-! ## The detection-line state machine -/

/-- What an event makes of a line's record, with the faults it clears and those it raises. -/
structure LineChange where
  record : LineRecord
  clears : List FaultKind := []
  onsets : List FaultKind := []

/-- The chatter window, 10 s (R20, R22). -/
def chatterTime : Timer := startSeconds 10

/-- The supervision fault of a fault state, and LINE-CHATTER of CHATTER (R23, R25, R26). -/
def LineState.faults (l : LineState) : List FaultKind :=
  match l with
  | .chatter => [.lineChatter]
  | .openFault => [.lineOpen]
  | .shortFault => [.lineShort]
  | _ => []

/-- An alarm candidate: CONFIRMING, or ACTIVE at once with a confirm time of 0 (R20). -/
def LineRecord.candidate (r : LineRecord) : LineRecord :=
  if r.cfg.confirm == 0 then { r with state := .active }
  else
    { r with
      state := .confirming, timer := startTenths r.cfg.confirm
      window := match r.window with
        | none => chatterTime
        | some left => some left }

/-- Entry into a state in which the window and the count do not live (R22, R25, R26). -/
def LineRecord.quietEntry (r : LineRecord) (state : LineState) : LineRecord :=
  { r with state := state, timer := none, window := none, toggles := 0 }

/-- A reading of OPEN-CIRCUIT or SHORT-CIRCUIT taken in any state but ISOLATED (R25). -/
def LineRecord.takeFault (r : LineRecord) (state : LineState) (kind : FaultKind) : LineChange :=
  { record := r.quietEntry state
    clears := if r.state == state then [] else r.state.faults
    onsets := [kind] }

/-- A reading of NORMAL taken in CONFIRMING: a toggle, and CHATTER at the limit (R21, R23). -/
def LineRecord.toggle (r : LineRecord) : LineChange :=
  if r.cfg.chatterLimit ≤ r.toggles + 1 then
    { record := { r.quietEntry .chatter with timer := startTenths r.cfg.clear }, onsets := [.lineChatter] }
  else { record := { r with state := .normal, timer := none, toggles := r.toggles + 1 } }

/-- A reading of NORMAL (R21, R23 to R25). -/
def LineRecord.takeNormal (r : LineRecord) : LineChange :=
  match r.state with
  | .confirming => r.toggle
  | .active => { record := { r with state := .clearing, timer := startTenths r.cfg.clear } }
  | .chatter => { record := { r with timer := startTenths r.cfg.clear } }
  | .openFault | .shortFault => { record := { r with state := .normal }, clears := r.state.faults }
  | _ => { record := r }

/-- A reading of ACTIVE (R20, R23 to R25). -/
def LineRecord.takeActive (r : LineRecord) : LineChange :=
  match r.state with
  | .normal => { record := r.candidate }
  | .clearing => { record := { r with state := .active, timer := none } }
  | .chatter => { record := { r with timer := none } }
  | .openFault | .shortFault => { record := r.candidate, clears := r.state.faults }
  | _ => { record := r }

/-- A reading event; in ISOLATED the reading is written and nothing else happens (R18, R20 to R26). -/
def LineRecord.takeReading (r : LineRecord) (reading : Reading) : LineChange :=
  let e := { r with reading := reading }
  if r.state == .isolated then { record := e }
  else
    match reading with
    | .normal => e.takeNormal
    | .active => e.takeActive
    | .openCircuit => e.takeFault .openFault .lineOpen
    | .shortCircuit => e.takeFault .shortFault .lineShort

/-- The expiry of the line timer (R21, R23, R24). -/
def LineRecord.timerExpiry (r : LineRecord) : LineChange :=
  match r.state with
  | .confirming => { record := { r with state := .active, timer := none } }
  | .clearing => { record := { r with state := .normal, timer := none } }
  | .chatter => { record := { r with state := .normal, timer := none }, clears := [.lineChatter] }
  | _ => { record := { r with timer := none } }

/-- The expiry of the chatter window (R22). -/
def LineRecord.windowExpiry (r : LineRecord) : LineRecord :=
  { r with window := none, toggles := 0 }

/-- Isolation (R26). -/
def LineRecord.isolate (r : LineRecord) : LineChange :=
  if r.state == .isolated then { record := r }
  else { record := r.quietEntry .isolated, clears := r.state.faults }

/-- Restoration according to the reading held (R27). -/
def LineRecord.restore (r : LineRecord) : LineChange :=
  if r.state == .isolated then
    match r.reading with
    | .normal => { record := { r with state := .normal } }
    | .active => { record := r.candidate }
    | .openCircuit => { record := r.quietEntry .openFault, onsets := [.lineOpen] }
    | .shortCircuit => { record := r.quietEntry .shortFault, onsets := [.lineShort] }
  else { record := r }

/-! ## The condition of a home zone -/

/-- The lines assigned to a zone. -/
def State.linesOf (s : State) (z : ZoneId) : List LineId :=
  (List.finRange 8).filter fun l => (s.line l).cfg.zone == some z

/-- A line is in test (section 2.2). -/
def State.inTest (s : State) (l : LineId) : Bool :=
  match s.liu.session with
  | some session => has session.lines l.val
  | none => false

/-- The condition of a home zone from its lines (R28). -/
def State.deriveCondition (s : State) (z : ZoneId) : Condition :=
  let lines := s.linesOf z
  let inChatter (alarm : Bool) (l : LineId) : Bool :=
    (s.line l).state == .chatter && (s.line l).cfg.chatterAlarm == alarm
  if lines.any fun l => ((s.line l).state.inActive && !s.inTest l) || inChatter true l then .alarm
  else if lines.any fun l => (s.line l).state.inFault || inChatter false l then .fault
  else if lines.any fun l => (s.line l).state.inActive && s.inTest l then .test
  else if lines != [] && lines.all fun l => (s.line l).state == .isolated then .isolated
  else .quiet

/-- A zone derived anew, and its change handed to the ZTU where there is one (R29). -/
def State.rederive (s : State) (z : ZoneId) : State × List Notice :=
  let c := s.deriveCondition z
  if s.isHome z && s.liu.lastCondition[z] != c then
    (s.withLiu { s.liu with lastCondition := put s.liu.lastCondition z c }).takeCondition z c
  else (s, [])

/-- An operation that hands notices, over a list of items; the notices in the order handed. -/
def sweepNotices {α : Type} (items : List α) (f : State → α → State × List Notice) (s : State) : State × List Notice :=
  items.foldl (fun r i => let r' := f r.1 i; (r'.1, r.2 ++ r'.2)) (s, [])

/-- The zones that have a line in a set, in increasing number (R29). -/
def State.zonesOf (s : State) (lines : LineSet) : List ZoneId :=
  (List.finRange 64).filter fun z => (s.linesOf z).any fun l => has lines l.val

/-- The zones that have a line in a set derived anew (R29, R30, R31). -/
def State.rederiveSet (s : State) (lines : LineSet) : State × List Notice :=
  sweepNotices (s.zonesOf lines) State.rederive s

/-- A line's change written and handed on: record, clears, onsets, and its zone derived anew where the state
changed (R25, R29). The spec gives no order between the fault reports and the zone's condition change; the faults go
first (log 5). -/
def State.settleLine (s : State) (l : LineId) (c : LineChange) : State × List Notice :=
  let before := s.line l
  let s1 := s.setLine l c.record
  let s2 := s1.handTogether (changeReports (byteOf l.val) (.line c.record.state) c.clears c.onsets) false
  match before.cfg.zone with
  | some z => if c.record.state == before.state then (s2, []) else s2.rederive z
  | none => (s2, [])

/-- A reading event of an assigned line: a band that gives the reading already held gives no event (R18). -/
def State.takeBand (s : State) (l : LineId) (band : Band) : State × List Notice :=
  let r := s.line l
  let reading := readingOf r.cfg.normallyClosed band
  if r.cfg.zone.isSome && reading != r.reading then s.settleLine l (r.takeReading reading) else (s, [])

/-! ## The walk test -/

/-- The end of a running session (R31). -/
def State.endSession (s : State) : State × List Notice :=
  match s.liu.session with
  | none => (s, [])
  | some session => (s.withLiu { s.liu with session := none }).rederiveSet session.lines

/-- The start of a session: the line set, 60 minutes, and the zones derived anew (R30). -/
def State.startSession (s : State) (lines : LineSet) : State × List Notice :=
  (s.withLiu { s.liu with session := some { lines := lines, timer := startSeconds 3600 } }).rederiveSet lines

/-! ## Command lines -/

/-- A change of a command line's raw level (R32). -/
def CommandRecord.takeRaw (r : CommandRecord) (level : Level) : CommandRecord :=
  if r.function == .unused || level == r.raw then r
  else { r with raw := level, timer := if level == r.debounced then none else startTenths 5 }

/-- The command line with its debounced level at the raw level and its timer stopped (R32). -/
def CommandRecord.settle (r : CommandRecord) : CommandRecord :=
  { r with debounced := r.raw, timer := none }

/-- A level change is a stand-down key event: the direction matches the configured edge (R34). -/
def CommandRecord.isKeyEvent (r : CommandRecord) (level : Level) : Bool :=
  match r.function, level with
  | .standDown false, .made => true
  | .standDown true, .broken => true
  | _, _ => false

/-- The group that a GROUP-ON or GROUP-OFF line names. -/
def CommandFunction.group (f : CommandFunction) : Option GroupId :=
  match f with
  | .groupOn g | .groupOff g => some g
  | _ => none

/-- The requested mode of a group from its command lines (R35). -/
def State.deriveRequested (s : State) (g : GroupId) : GroupMode :=
  let active (f : CommandFunction) : Bool :=
    (List.finRange 8).any fun l => (s.liu.commands[l]).function == f && (s.liu.commands[l]).debounced == .made
  if active (.groupOff g) then .off else if active (.groupOn g) then .on else .auto

end Sys2Proof.Machine
end

