-- ==== Sys2Proof/Machine/Agreement.lean ====
section
/-! DEFINITION. The Agreement Engine: precedence (R41), the views bulletins carry (R42), claims (R45 to R50), adoption (R44,
R51 to R57), escalation (R58, R59), stand-down (R60, R61), joining and island (R62 to R66). -/

namespace Sys2Proof.Machine

/-! ## The lists of the Scenario Record -/

/-- Append to the subsequent-zone list (R39). -/
def Age.append (a : Age) (z : ZoneId) : Age :=
  if a.view.origin == some z || a.subsequent.contains z
      || (a.view.phase == .gathering && a.candidates.contains z) || decide (8 ≤ a.subsequent.length) then a
  else { a with subsequent := a.subsequent ++ [z] }

/-- Append of zones in order (R39). -/
def Age.appendAll (a : Age) (zones : List ZoneId) : Age :=
  zones.foldl Age.append a

/-- Insert at the head of the subsequent-zone list; a ninth entry drops off the end (R39). -/
def Age.insertHead (a : Age) (z : ZoneId) : Age :=
  { a with subsequent := (z :: a.subsequent).take 8 }

/-- Remove from the subsequent-zone list (R39). -/
def Age.removeZone (a : Age) (z : ZoneId) : Age :=
  { a with subsequent := a.subsequent.filter fun x => x != z }

/-- A zone outranks another by this station's Zone Table. -/
def State.outranks (s : State) (a b : ZoneId) : Bool :=
  decide (s.rank b < s.rank a)

/-- The highest-ranked zone of a list. -/
def State.highest (s : State) (zones : List ZoneId) : Option ZoneId :=
  (s.byRank zones).head?

/-- The scenario of a zone, 0 for one out of use (R16). -/
def State.scenarioOf (s : State) (z : ZoneId) : ScenarioId :=
  match (s.zone z).cfg with
  | some c => c.scenario
  | none => 0

/-- The claim window timer started in full (R38). -/
def State.windowTime (s : State) : Timer :=
  startTenths s.cfl.claimWindow

/-! ## Precedence -/

/-- The rank of an origin; none ranks below every zone (R41). -/
def State.originRank (s : State) (origin : Option ZoneId) : Nat :=
  match origin with
  | some z => s.rank z
  | none => 0

/-- Of two epochs, the first is the greater under the first test of precedence (R41). -/
def epochGreater (a b : Epoch) : Bool :=
  ahead a b || ((a - b).toNat == 32768 && decide (b.toNat < a.toNat))

/-- A view is strictly greater than another under precedence (R41). -/
def State.greater (s : State) (a b : View) : Bool :=
  if a.epoch != b.epoch then epochGreater a.epoch b.epoch
  else if a.phase == .idle then b.phase != .idle
  else if b.phase == .idle then false
  else if a.escalated != b.escalated then a.escalated
  else if a.phase != b.phase then a.phase == .running
  else decide (s.originRank b.origin < s.originRank a.origin)

/-- Two views are equal under precedence: neither is greater (R41). -/
def State.equalRank (s : State) (a b : View) : Bool :=
  !s.greater a b && !s.greater b a

/-! ## The views that bulletins carry -/

/-- An in-use zone that a byte names (R42). -/
def State.zoneOfByte (s : State) (b : Byte) : Option ZoneId :=
  match index 64 b.toNat with
  | some z => if s.inUse z then some z else none
  | none => none

/-- The IDLE view of an epoch (R37, R42). -/
def idleView (epoch : Epoch) : View where
  epoch := epoch
  phase := .idle
  escalated := false
  origin := none
  scenario := 0
  step := 0
  established := false

/-- The GATHERING view of an epoch with a leading candidate (R37, R48). -/
def gatheringView (epoch : Epoch) (z : ZoneId) : View where
  epoch := epoch
  phase := .gathering
  escalated := false
  origin := some z
  scenario := 0
  step := 0
  established := false

/-- A scenario 1 to 31 that a byte names. -/
def scenarioOfByte (b : Byte) : Option ScenarioId :=
  match index 32 b.toNat with
  | some c => if c == 0 then none else some c
  | none => none

/-- The view an ESCALATE carries, where it is not discarded (R42). -/
def State.escalateView (s : State) (epoch : Epoch) (origin scenario : Byte) : Option View :=
  match s.zoneOfByte origin, scenarioOfByte scenario with
  | some z, some c =>
    some { epoch := epoch, phase := .running, escalated := true, origin := some z, scenario := c, step := 1,
           established := false }
  | _, _ => none

/-- The RUNNING view a VIEW carries, where it is not discarded (R42). -/
def State.runningView (s : State) (epoch : Epoch) (flags : Byte) (z : ZoneId) (scenario step : Byte) : Option View :=
  match scenarioOfByte scenario, index 9 step.toNat with
  | some c, some k =>
    let count := (s.sts.programs[c]).stepCount
    if k == 0 || decide (count < k.val) || (flagsEstablished flags && decide (k.val < count)) then none
    else some { epoch := epoch, phase := .running, escalated := flagsEscalated flags, origin := some z, scenario := c,
                step := k, established := flagsEstablished flags }
  | _, _ => none

/-- The view a VIEW carries, where it is not discarded (R42). -/
def State.heardView (s : State) (epoch : Epoch) (flags origin scenario step : Byte) : Option View :=
  match Phase.ofCode (flagsPhase flags), s.zoneOfByte origin with
  | some .idle, _ => some (idleView epoch)
  | some .gathering, some z =>
    if flagsEscalated flags || flagsEstablished flags || scenario != 0 || step != 0 then none
    else some (gatheringView epoch z)
  | some .running, some z => s.runningView epoch flags z scenario step
  | _, _ => none

/-! ## Escalation -/

/-- The escalation test passes, with this target (R58). -/
def State.escalationTarget (s : State) : Option ScenarioId :=
  let v := s.age.view
  let p := s.sts.programs[v.scenario]
  if s.prm.mode.joined && v.phase == .running && !v.escalated && decide (1 ≤ p.escalationCount)
      && decide (p.escalationCount ≤ s.age.subsequent.length) && s.age.escalationEpoch != some (v.epoch + 1) then
    p.escalationTarget
  else none

/-- The escalation test (R58). -/
def State.escalationTest (s : State) : State :=
  match s.escalationTarget with
  | none => s
  | some target =>
    (s.withAge { s.age with escalationEpoch := some (s.age.view.epoch + 1) }).queue
      (.escalate (s.age.view.epoch + 1) (zoneByte s.age.view.origin) (byteOf target.val))

/-- A zone appended to the subsequent-zone list, and the escalation test (R45, R46, R49, R58). -/
def State.appendSubsequent (s : State) (z : ZoneId) : State :=
  (s.withAge (s.age.append z)).escalationTest

/-- The alarm sweep (R40). -/
def State.alarmSweep (s : State) : State :=
  s.withAge (s.age.appendAll s.alarms)

/-! ## Commitment -/

/-- The WINDOW-CLOSED trace event (R50, R65, R185). -/
def State.traceClosed (s : State) : State :=
  s.trace .windowClosed (zoneByte s.age.view.origin) (byteOf s.age.view.scenario.val) (byteOf s.age.subsequent.length)

/-- The Scenario Record after the claim window closes on an origin: the other candidates become subsequent zones and the
view runs at step 1 (R50, R64). -/
def Age.commit (a : Age) (origin : ZoneId) (scenario : ScenarioId) : Age :=
  ({ a with
    view := { a.view with phase := .running, escalated := false, origin := some origin, scenario := scenario, step := 1,
                          established := false }
    candidates := [], window := none }).appendAll a.candidates

/-- The claim window closes: the AGE commits to the leading candidate (R50, R64). -/
def State.commitOrigin (s : State) : State :=
  match s.highest s.age.candidates with
  | none => s
  | some origin =>
    let s1 := (s.withAge (s.age.commit origin (s.scenarioOf origin))).alarmSweep
    (((s1.takeView false).traceClosed).queueView).escalationTest

/-! ## Home and copy alarm notices -/

/-- A CLAIM queued for a zone at an epoch. -/
def State.queueClaim (s : State) (epoch : Epoch) (z : ZoneId) : State :=
  s.queue (.claim epoch (byteOf z.val))

/-- A zone stands on the candidate list or the subsequent-zone list. -/
def Age.lists (a : Age) (z : ZoneId) : Bool :=
  a.candidates.contains z || a.subsequent.contains z

/-- The Scenario Record when a station in ISLAND takes the fire mode at once (R65). -/
def Age.fire (a : Age) (origin : ZoneId) (scenario : ScenarioId) : Age :=
  { a with
    view := { epoch := a.view.epoch + 1, phase := .running, escalated := false, origin := some origin,
              scenario := scenario, step := 1, established := false }
    candidates := [], subsequent := [], window := none }

/-- A home alarm notice taken in ISLAND with the view IDLE: the fire mode at once (R65). -/
def State.islandFire (s : State) : State × List Notice :=
  match s.homeAlarms.head? with
  | none => (s, [])
  | some origin =>
    let s1 := (s.withAge (s.age.fire origin (s.scenarioOf origin))).alarmSweep
    let s2 := (s1.queueClaim s1.age.view.epoch origin).takeView false
    let r := s2.endSession
    ((r.1.traceClosed.queueView).escalationTest, r.2)

/-- A home alarm notice in GATHERING: claimed unless the zone is on a list (R45, R65). -/
def State.claimInWindow (s : State) (z : ZoneId) : State :=
  if s.age.lists z then s else s.queueClaim s.age.view.epoch z

/-- The AGE takes a home alarm notice (R45, R65). -/
def State.takeHomeNotice (s : State) (z : ZoneId) : State × List Notice :=
  if (s.zone z).condition != .alarm || !s.prm.mode.joined then (s, [])
  else
    match s.age.view.phase with
    | .idle =>
      if s.prm.mode == .island then s.islandFire else (s.queueClaim (s.age.view.epoch + 1) z, [])
    | .gathering => (s.claimInWindow z, [])
    | .running => (s.appendSubsequent z, [])

/-- The AGE takes a copy alarm notice (R46). -/
def State.takeCopyNotice (s : State) (z : ZoneId) : State :=
  if (s.zone z).condition == .alarm && s.age.view.phase == .running then s.appendSubsequent z else s

/-- The AGE takes one notice. -/
def State.takeNotice (s : State) (n : Notice) : State × List Notice :=
  match n with
  | .home z => s.takeHomeNotice z
  | .copy z => (s.takeCopyNotice z, [])

/-- The AGE takes notices in order, and then those that a fire taken in ISLAND has handed; these find the view RUNNING and
hand none (log 6). -/
def State.takeNotices (s : State) (notices : List Notice) : State :=
  let r := sweepNotices notices State.takeNotice s
  (sweepNotices r.2 State.takeNotice r.1).1

/-- Claim renewal at a VIEW period event (R47). -/
def State.claimRenewal (s : State) : State :=
  if s.prm.mode != .onLine then s
  else
    match s.age.view.phase with
    | .idle =>
      match s.homeAlarms.head? with
      | some z => s.queueClaim (s.age.view.epoch + 1) z
      | none => s
    | .gathering =>
      match (s.homeAlarms.filter fun z => !s.age.lists z).head? with
      | some z => s.queueClaim s.age.view.epoch z
      | none => s
    | .running => s

/-! ## Adoption -/

/-- How an adopted view meets the own one (R51 to R55). -/
inductive Adoption where
  | newEpoch
  | continuation
  | laterCandidate
  | sameEpochRunning
  | sameEpochIdle
deriving DecidableEq, Repr

/-- The kind of an adoption. A view heard in an ESCALATE at the own epoch is a new epoch (R59; log 19). -/
def State.adoptionKind (s : State) (v : View) (byEscalate : Bool) : Adoption :=
  let own := s.age.view
  if own.phase == .running && !own.escalated && v.phase == .running && v.escalated && v.epoch == own.epoch + 1 then
    .continuation
  else if s.age.void || v.epoch != own.epoch || byEscalate then .newEpoch
  else
    match v.phase with
    | .idle => .sameEpochIdle
    | .gathering => .laterCandidate
    | .running => .sameEpochRunning

/-- The own view after an adoption, void no (R44). -/
def Age.adopted (a : Age) (v : View) : Age :=
  { a with view := v, void := false }

/-- The lists at a new epoch (R51). -/
def State.adoptNewEpoch (s : State) (v : View) : State :=
  let a := { s.age.adopted v with candidates := [], subsequent := [], window := none }
  match v.phase, v.origin with
  | .gathering, some z => s.withAge { a with candidates := [z], window := s.windowTime }
  | .running, _ => (s.withAge a).alarmSweep
  | _, _ => s.withAge a

/-- The displaced origin put at the head of the subsequent-zone list in place of the heard one (R53, R54). -/
def Age.displace (a : Age) (displaced heard : ZoneId) : Age :=
  (a.removeZone heard).insertHead displaced

/-- VIEW-DISPUTE reported for a displaced origin (R53, R54). -/
def State.reportDispute (s : State) (displaced : ZoneId) : State :=
  s.onset .viewDispute (byteOf displaced.val) .none true

/-- The same fire goes on at the escalated epoch (R54). -/
def State.adoptContinuation (s : State) (v : View) : State :=
  let a := { s.age.adopted v with candidates := [], window := none }
  match s.age.view.origin, v.origin with
  | some d, some n =>
    if d == n then s.withAge a else (s.withAge (a.displace d n)).reportDispute d
  | _, _ => s.withAge a

/-- The candidate list with room made for one more: the lowest-ranked candidate of a full list goes to the subsequent-zone
list (R52). -/
def State.makeRoom (s : State) (a : Age) : Age :=
  if a.candidates.length < 8 then a
  else
    match (s.byRank a.candidates).getLast? with
    | none => a
    | some low => ({ a with candidates := a.candidates.filter fun x => x != low }).append low

/-- A higher candidate gathered from a peer (R52). -/
def State.adoptCandidate (s : State) (v : View) : State :=
  match v.origin with
  | none => s.withAge (s.age.adopted v)
  | some n =>
    let a := s.makeRoom (s.age.removeZone n)
    s.withAge ({ a with candidates := a.candidates.filter (fun x => x != n) ++ [n] }.adopted v)

/-- A RUNNING view of the same epoch (R53); the sweep is made if the station was GATHERING. The restart of a dispute is in
`State.handAdopted`. -/
def State.adoptSameEpoch (s : State) (v : View) : State :=
  let own := s.age
  let a := { own.adopted v with candidates := [], window := none }
  let wasGathering := own.view.phase == .gathering
  let s1 :=
    match own.view.origin, v.origin with
    | some d, some n =>
      if d == n then s.withAge (a.appendAll (own.candidates.filter fun x => x != d))
      else
        let b := a.displace d n
        let others := own.candidates.filter fun x => x != d && x != n
        (s.withAge (if wasGathering then b.appendAll others else b)).reportDispute d
    | _, _ => s.withAge a
  if wasGathering then s1.alarmSweep else s1

/-- An IDLE view of the same epoch (R55). -/
def State.adoptIdle (s : State) (v : View) : State :=
  s.withAge { s.age.adopted v with candidates := [], subsequent := [], window := none }

/-- Whether the STS is told to begin again: a dispute at one epoch (R53). -/
def State.isDispute (s : State) (v : View) (kind : Adoption) : Bool :=
  kind == .sameEpochRunning && s.age.view.origin != v.origin

/-- The Scenario Record with its view at step 1 of its scenario, not established (R53). -/
def Age.beginAgain (a : Age) : Age :=
  { a with view := { a.view with step := 1, established := false } }

/-- The view of an adoption handed to the STS (R44). At a dispute the change is marked as a restart and the step state begins
again at step 1 of the adopted scenario, whatever step the heard view carried (R53, step 6); the view stands there with it, not
established (R57, R94; log 41). -/
def State.handAdopted (s : State) (dispute : Bool) : State :=
  if dispute then (s.withAge s.age.beginAgain).takeView true else s.takeView false

/-- The lists and the view of an adoption by its kind (R51 to R55). -/
def State.adoptLists (s : State) (v : View) (kind : Adoption) : State :=
  match kind with
  | .newEpoch => s.adoptNewEpoch v
  | .continuation => s.adoptContinuation v
  | .laterCandidate => s.adoptCandidate v
  | .sameEpochRunning => s.adoptSameEpoch v
  | .sameEpochIdle => s.adoptIdle v

/-- The STAND-DOWN trace event of an IDLE view adopted in a fire phase (R55; log 20). -/
def State.traceStandDown (s : State) (previous : Option ZoneId) : State :=
  s.trace .standDown (zoneByte previous) (hiByte s.age.view.epoch) (loByte s.age.view.epoch)

/-- The AGE adopts a view (R44). The notices that the LIU and the ZTU hand are taken after it (log 6). The STAND-DOWN trace
entry stands after those of the STS and the LIU, just before VIEW-ADOPTED (R55; log 20). -/
def State.adopt (s : State) (v : View) (sender : StationId) (byEscalate : Bool) : State × List Notice :=
  let own := s.age.view
  let kind := s.adoptionKind v byEscalate
  let s1 := (s.adoptLists v kind).handAdopted (s.isDispute v kind)
  let r := if own.phase == .idle && v.phase != .idle then s1.endSession else (s1, [])
  let becameIdle := v.phase == .idle && own.phase != .idle
  let notices := if becameIdle && r.1.prm.mode.joined then r.1.phaseNotices else []
  let s2 := if becameIdle then r.1.traceStandDown own.origin else r.1
  (((s2.trace .viewAdopted (byteOf sender.val) (zoneByte v.origin) (byteOf v.scenario.val)).queueView).escalationTest,
    r.2 ++ notices)

/-- Whether the AGE adopts a view: any while void, else a strictly greater one (R44, R62). -/
def State.adopts (s : State) (v : View) : Bool :=
  s.age.void || s.greater v s.age.view

/-! ## Bulletins -/

/-- The claim window opens (R48). -/
def State.openWindow (s : State) (epoch : Epoch) (z : ZoneId) : State × List Notice :=
  let wasIdle := s.age.view.phase == .idle
  let s1 := (s.withAge { s.age with
    view := gatheringView epoch z, void := false, candidates := [z], subsequent := [],
    window := s.windowTime }).takeView false
  let r := if wasIdle then s1.endSession else (s1, [])
  ((r.1.trace .windowOpened (byteOf z.val) (hiByte epoch) (loByte epoch)).queueView, r.2)

/-- A zone becomes a candidate while the list has room (R49). -/
def State.addCandidate (s : State) (z : ZoneId) : State :=
  let a := { s.age with candidates := s.age.candidates ++ [z] }
  match a.view.origin with
  | some leading =>
    if s.outranks z leading then (s.withAge { a with view := { a.view with origin := some z } }).queueView
    else s.withAge a
  | none => (s.withAge { a with view := { a.view with origin := some z } }).queueView

/-- A CLAIM of the own epoch, by the own phase (R49). -/
def State.claimAtEpoch (s : State) (z : ZoneId) : State :=
  match s.age.view.phase with
  | .gathering =>
    if s.age.lists z then s
    else if s.age.candidates.length < 8 then s.addCandidate z
    else s.withAge (s.age.append z)
  | .running => s.appendSubsequent z
  | .idle => s.queueView

/-- The AGE takes a CLAIM (R42, R48, R49). -/
def State.takeClaim (s : State) (epoch : Epoch) (zone : Byte) : State × List Notice :=
  match s.zoneOfByte zone with
  | none => (s, [])
  | some z =>
    if s.age.void || ahead epoch s.age.view.epoch then s.openWindow epoch z
    else if epoch == s.age.view.epoch then (s.claimAtEpoch z, [])
    else (s.queueView, [])

/-- A sender is MISMATCHED in the Presence Table as the PRM leaves it after noting a bulletin that is not a VIEW (R43,
R70). -/
def State.mismatchedAfter (s : State) (sender : StationId) : Bool :=
  sender != s.number && (s.presence sender).digest.isSome && (s.presence sender).digest != s.cfl.digest

/-- A carried view compared with the own: adopted, equal, or answered with a VIEW where it is lesser (R59, R61). -/
def State.compareView (s : State) (v : View) (sender : StationId) (byEscalate : Bool) : State × List Notice :=
  if s.adopts v then s.adopt v sender byEscalate
  else if s.equalRank v s.age.view then (s, [])
  else (s.queueView, [])

/-- The AGE takes an ESCALATE (R43, R59). -/
def State.takeEscalate (s : State) (sender : StationId) (epoch : Epoch) (origin scenario : Byte) : State × List Notice :=
  match s.escalateView epoch origin scenario with
  | none => (s, [])
  | some v =>
    if s.mismatchedAfter sender then (s, [])
    else (s.withAge { s.age with escalationEpoch := some epoch }).compareView v sender true

/-- The AGE takes a STAND-DOWN (R43, R61). -/
def State.takeStandDown (s : State) (sender : StationId) (epoch : Epoch) : State × List Notice :=
  if s.mismatchedAfter sender then (s, []) else s.compareView (idleView epoch) sender false

/-- Whether an equal VIEW makes step catch-up (R56). -/
def State.catchesUp (s : State) (v : View) : Bool :=
  let own := s.age.view
  own.phase == .running && v.phase == .running && v.scenario == own.scenario
    && (decide (own.step < v.step)
      || (v.step == own.step && v.step.val == (s.sts.programs[v.scenario]).stepCount && v.established
        && !own.established))

/-- Step catch-up from an equal VIEW (R56). -/
def State.ageCatchUp (s : State) (v : View) : State :=
  ((s.withAge { s.age with view := { s.age.view with step := v.step, established := v.established } }).catchUp
    v.epoch v.scenario v.step v.established).queueView

/-- Whether the AGE takes a VIEW for agreement: from another station, of this station's digest, not in JOINING (R43). -/
def State.takesView (s : State) (sender : StationId) (flags : Byte) (digest : BitVec 16) : Bool :=
  sender != s.number && s.cfl.digest == some digest && flagsMode flags != 0

/-- The AGE takes a VIEW (R43, R44, R56). -/
def State.takeHeardView (s : State) (sender : StationId) (epoch : Epoch) (flags origin scenario step : Byte)
    (digest : BitVec 16) : State × List Notice :=
  if s.takesView sender flags digest then
    match s.heardView epoch flags origin scenario step with
    | none => (s, [])
    | some v =>
      if s.adopts v then s.adopt v sender false
      else if s.equalRank v s.age.view && s.catchesUp v then (s.ageCatchUp v, [])
      else (s, [])
  else (s, [])

/-- The entries that hold a stand-down back: HOME, CURRENT or STALE in ALARM, by decreasing rank (R60). -/
def State.alarmsHeard (s : State) : List ZoneId :=
  s.byRank ((List.finRange 64).filter fun z => (s.zone z).copy != .unheard && (s.zone z).condition == .alarm)

/-- The AGE takes a stand-down key event (R60). -/
def State.takeKeyEvent (s : State) : State :=
  if s.age.view.phase == .idle then s
  else
    match s.alarmsHeard.head? with
    | some z => s.onset .standDownRefused (byteOf z.val) .none true
    | none => s.queue (.standDown s.age.view.epoch)

/-! ## Joining, island, link restart -/

/-- The AGE takes the join-end event (R63). -/
def State.joinEnd (s : State) : State :=
  ((s.withAge { s.age with void := false }).settleView).escalationTest

/-- The AGE takes the entry into ISLAND: an open window closes at once (R64). -/
def State.islandEntry (s : State) : State :=
  if s.age.view.phase == .gathering then s.commitOrigin else s

/-- The AGE takes a link restart (R37, R174). -/
def State.ageLinkRestart (s : State) : State :=
  (s.withAge { s.age with escalationEpoch := none }).escalationTest

end Sys2Proof.Machine
end

