-- ==== Sys2Proof/Machine/Overrides.lean ====
section
/-! DEFINITION. The Override Unit: requests (R152), the rotation (R153), OVERRIDEs heard (R154, R155), staleness marks (R156)
and local-apply (R157). -/

namespace Sys2Proof.Machine

/-- A group owned by this station (section 8.1). -/
def State.ownsGroup (s : State) (g : GroupId) : Bool :=
  (s.group g).owner == some s.number

/-- The OVERRIDE-CHANGED trace event of a group (R155 to R157, R185). -/
def State.traceOverride (s : State) (g : GroupId) : State :=
  s.trace .overrideChanged (byteOf g.val) (s.group g).mode.code (if (s.group g).stale then 1 else 0)

/-- A mode written into the table for an own group by local-apply, with its hand-overs; a mode that the table already holds
hands nothing (R157; log 43). -/
def State.applyMode (s : State) (g : GroupId) (m : GroupMode) : State :=
  if (s.group g).mode == m then s
  else ((s.setGroup g { s.group g with mode := m }).recompute).traceOverride g

/-- The OVU takes a group mode request (R152, R157). Under local-apply the table is written and handed over before the OVERRIDE is
queued, an order that the spec leaves open (log 53). -/
def State.takeRequest (s : State) (g : GroupId) (m : GroupMode) : State :=
  let s1 := s.withOvu { s.ovu with requested := put s.ovu.requested g m }
  let s2 := if s.ovu.localApply then s1.applyMode g m else s1
  s2.queue (.override (byteOf g.val) m.code)

/-- The requested mode of a group derived, and handed to the OVU where it is new (R35). -/
def State.deriveGroup (s : State) (g : GroupId) : State :=
  let m := s.deriveRequested g
  if s.ownsGroup g && s.liu.lastRequested[g] != m then
    (s.withLiu { s.liu with lastRequested := put s.liu.lastRequested g m }).takeRequest g m
  else s

/-- The override refresh at a VIEW period event (R153). -/
def State.overrideRefresh (s : State) : State :=
  match rotate s.ovu.rotation s.ownsGroup with
  | none => s
  | some g =>
    (s.withOvu { s.ovu with rotation := some g }).queue (.override (byteOf g.val) (s.ovu.requested[g]).code)

/-- Whether the OVU accepts an OVERRIDE for a group (R154). -/
def State.acceptsOverride (s : State) (src : Source) (g : GroupId) : Bool :=
  (s.group g).owner == some src.sender && (!s.ownsGroup g || src.origin == .loopback)

/-- An accepted OVERRIDE (R155). -/
def State.acceptOverride (s : State) (g : GroupId) (m : GroupMode) : State :=
  let e := s.group g
  let s1 := s.setGroup g { e with mode := m, stale := false, lastHeard := some s.now }
  let s2 := if e.mode == m then s1 else s1.recompute
  if e.mode == m && !e.stale then s2 else s2.traceOverride g

/-- The OVU takes an OVERRIDE (R154, R155). -/
def State.takeOverride (s : State) (src : Source) (group mode : Byte) : State :=
  match index 16 group.toNat, GroupMode.ofCode mode with
  | some g, some m => if s.acceptsOverride src g then s.acceptOverride g m else s
  | _, _ => s

/-- One group takes a staleness mark for a station (R156). -/
def State.markGroup (n : StationId) (s : State) (g : GroupId) : State :=
  if (s.group g).owner == some n && !(s.group g).stale then
    (s.setGroup g { s.group g with stale := true }).traceOverride g
  else s

/-- The OVU takes a staleness mark, group by group in increasing number, an order the spec leaves open (R156; log 42). -/
def State.markGroups (s : State) (n : StationId) : State :=
  sweep (List.finRange 16) (State.markGroup n) s

/-- One own group takes its requested mode at the onset of LINK-STUCK (R157). -/
def State.applyRequested (s : State) (g : GroupId) : State :=
  if s.ownsGroup g then s.applyMode g (s.ovu.requested[g]) else s

/-- The OVU takes the onset of LINK-STUCK: local-apply set and the own groups applied in increasing number, each written and
handed over before the next (R157; log 48). -/
def State.startLocalApply (s : State) : State :=
  sweep (List.finRange 16) State.applyRequested (s.withOvu { s.ovu with localApply := true })

/-- The OVU takes the clear of LINK-STUCK (R157). -/
def State.endLocalApply (s : State) : State :=
  s.withOvu { s.ovu with localApply := false }

end Sys2Proof.Machine
end

