-- ==== Sys2Proof/Machine/Presence.lean ====
section
/-! DEFINITION. The Presence Monitor: noting senders (R70, R71), age expiry (R72), presence changes (R73), the station modes
(R74 to R82), the periodic VIEW (R83) and SYNC-REQUESTs heard (R84). -/

namespace Sys2Proof.Machine

/-- The absence limit as a timer (R68, R79). -/
def State.absenceTime (s : State) : Timer :=
  startTenths s.cfl.absence

/-- The join wait, 2.0 s (R77, R81). -/
def joinWaitTime : Timer := startSeconds 2

/-- The VIEW period, 1.0 s (R77, R83). -/
def viewPeriodTime : Timer := startSeconds 1

/-- The configured set holds a station other than this one (R79, R80). -/
def State.othersConfigured (s : State) : Bool :=
  remove s.prm.configured s.number.val != 0

/-! ## Mode changes -/

/-- A mode change handed on: a VIEW, the STS, the trace (R82). -/
def State.handMode (s : State) (old : Mode) : State :=
  (s.queueView.takeMode).trace .modeChanged 255 old.code s.prm.mode.code

/-- The state with the station mode set. -/
def State.setMode (s : State) (m : Mode) : State :=
  s.withPrm { s.prm with mode := m }

/-- Entry into ISLAND (R80). -/
def State.enterIsland (s : State) : State :=
  ((((s.setMode .island).onset .island 255 .none false).islandEntry)).handMode s.prm.mode

/-- Entry into JOINING after island (R81). -/
def State.enterJoiningAfterIsland (s : State) : State :=
  let s1 := ((s.setMode .joiningAfterIsland).clear .island 255).queueSync
  (s1.withPrm { s1.prm with joinWait := joinWaitTime }).handMode s.prm.mode

/-- The own entry at an entry into ON-LINE (R74). -/
def State.markOwnLive (s : State) : State :=
  s.setPresence s.number { s.presence s.number with state := .live, lastHeard := some s.now }

/-- A cause of ISLAND stands at the entry into ON-LINE (R78, R80). -/
def State.islandAtEntry (s : State) : Bool :=
  s.bsc.linkStuck || (s.prm.solo.isNone && s.othersConfigured)

/-- The end of the join wait: ON-LINE, the view settled, the join-end notices, and ISLAND at once where its cause stands, with
the home alarm notices once more (R14, R63, R78). -/
def State.endJoinWait (s : State) : State :=
  let s1 := ((s.setMode .onLine).withPrm { (s.setMode .onLine).prm with joinWait := none }).markOwnLive.joinEnd
  let s2 := (s1.takeNotices s1.joinEndNotices).handMode s.prm.mode
  if s2.islandAtEntry then
    let s3 := s2.enterIsland
    s3.takeNotices s3.phaseNotices
  else s2

/-- The PRM takes the onset of LINK-STUCK (R80). -/
def State.prmLinkStuck (s : State) : State :=
  if s.prm.mode == .onLine then s.enterIsland else s

/-- The PRM takes the clear of LINK-STUCK (R80). -/
def State.prmLinkClear (s : State) : State :=
  if s.prm.mode == .island && !s.othersConfigured then s.enterJoiningAfterIsland else s

/-- The solo timer expires (R79). -/
def State.soloExpiry (s : State) : State :=
  let s' := s.withPrm { s.prm with solo := none }
  if s.prm.mode == .onLine && s.othersConfigured then s'.enterIsland else s'

/-! ## Presence changes -/

/-- The station's last heard time as the detail of a presence fault (R179). -/
def State.stationDetail (s : State) (n : StationId) : Detail :=
  .station (s.presence n).lastHeard

/-- The presence faults that a change of state ends and begins, of a station in the configured set or not (R73): STATION-ABSENT of
a configured one alone, CONFIG-MISMATCH of any. -/
def presenceChange (listed : Bool) (old new : Presence) : List FaultKind × List FaultKind :=
  let ended := kindIf (old == .absent && listed) .stationAbsent ++ kindIf (old == .mismatched) .configMismatch
  match new with
  | .absent => (ended, kindIf listed .stationAbsent)
  | .mismatched => (ended, [.configMismatch])
  | .live => (ended, [])
  | .unknown => ([], [])

/-- The presence faults of a change, reported with the time the station was last heard (R73, R179). -/
def State.presenceFaults (s : State) (n : StationId) (old new : Presence) : State :=
  let c := presenceChange (has s.prm.configured n.val) old new
  s.handTogether (changeReports (byteOf n.val) (s.stationDetail n) c.1 c.2) false

/-- A presence state is one in which a station's copies and groups are stale: ABSENT or MISMATCHED (R73). -/
def Presence.marks (p : Presence) : Bool :=
  match p with
  | .absent | .mismatched => true
  | _ => false

/-- A change of a peer's state, handed to the ZTU, the OVU, the STS and the FLU in this order (R73; log 5). -/
def State.changePresence (s : State) (n : StationId) (new : Presence) : State :=
  let old := (s.presence n).state
  if old == new then s
  else
    let s1 := s.setPresence n { s.presence n with state := new }
    let s2 := if new.marks then (s1.markZones n).markGroups n else s1
    let s3 := if old == .live then s2.stationLost n else s2
    s3.presenceFaults n old new

/-- The state a peer's last digest gives it (R70, R71). -/
def State.presenceByDigest (s : State) (n : StationId) : Presence :=
  match (s.presence n).digest with
  | none => .live
  | some d => if s.cfl.digest == some d then .live else .mismatched

/-- A peer noted, with its digest already recorded: heard now, its age and state, the solo timer, and the end of ISLAND (R70,
R71, R79, R81). -/
def State.notePeer (s : State) (n : StationId) : State :=
  let s1 := s.setPresence n { s.presence n with lastHeard := some s.now, age := s.absenceTime }
  let new := s1.presenceByDigest n
  let s2 := s1.changePresence n new
  if new == .live then
    let s3 := s2.withPrm { s2.prm with solo := s2.absenceTime }
    if s.prm.mode == .island then s3.enterJoiningAfterIsland else s3
  else s2

/-- The PRM takes a bulletin of any kind but VIEW and SYNC-REQUEST (R70). -/
def State.noteSender (s : State) (n : StationId) : State :=
  if n == s.number then s else s.notePeer n

/-- The PRM takes a VIEW (R71). -/
def State.noteView (s : State) (n : StationId) (epoch : Epoch) (flags origin scenario step : Byte)
    (digest : BitVec 16) : State :=
  if n == s.number then s
  else
    (s.setPresence n { s.presence n with
      digest := some digest, summary := some (summaryOf epoch flags origin scenario step) }).notePeer n

/-- The PRM takes a SYNC-REQUEST: noted, and answered in ON-LINE or ISLAND (R84). -/
def State.takeSync (s : State) (n : StationId) : State :=
  if n == s.number then s
  else
    let s' := s.notePeer n
    if s.prm.mode.joined then s'.queueView else s'

/-- A peer's age timer expires (R72). -/
def State.ageExpiry (s : State) (n : StationId) : State :=
  (s.setPresence n { s.presence n with age := none }).changePresence n .absent

/-- The VIEW period timer expires: restarted, a VIEW queued, and the event handed to the ZTU, the AGE and the OVU (R83). -/
def State.viewPeriod (s : State) : State :=
  (((s.withPrm { s.prm with viewPeriod := viewPeriodTime }).queueView).rotationReport.claimRenewal).overrideRefresh

end Sys2Proof.Machine
end

