-- ==== Sys2Proof/Machine/BusEvents.lean ====
section
/-! DEFINITION. The Bus Controller's own events: attempts (R161, R162, R166, R167), reception (R168, R169), duplicates (R171),
the stuck line (R172, R173) and the link restart (R174). -/

namespace Sys2Proof.Machine

/-! ## The line -/

/-- The recessive bit times that make the line idle (R159). -/
def idleBits : Nat := 10

/-- The dominant interval, 4 ms, in bit times of 16 microseconds (R159, R172). -/
def dominantBits : Nat := 250

/-- The recovery interval, 20 ms, in bit times (R173). -/
def recoveryBits : Nat := 1250

/-- The dominant timer so many bit times after the change of the line to dominant. Run out while LINK-STUCK is active it has
expired without effect and is stopped (R172). -/
def dominantAfter (linkStuck : Bool) (heldBits : Nat) : Timer :=
  if linkStuck && decide (dominantBits ≤ heldBits) then none else some (dominantBits - heldBits)

/-- The recovery timer so many bit times after the change of the line to recessive; it runs while LINK-STUCK is
active (R173). -/
def recoveryAfter (linkStuck : Bool) (heldBits : Nat) : Timer :=
  if linkStuck then some (recoveryBits - heldBits) else none

/-- The line outside a frame after so many recessive bit times (R159). -/
def LineWatch.quiet (bits : Nat) : LineWatch :=
  .outside (min bits idleBits)

/-- The line is idle: outside a frame, recessive for 10 bit times (R159). -/
def LineWatch.idle (w : LineWatch) : Bool :=
  match w with
  | .frame => false
  | .outside bits => decide (idleBits ≤ bits)

/-- The line as sampled at a tick (R159; log 50). -/
def LineWatch.sampled (line : LineLevel) (quietBits : Option Nat) : LineWatch :=
  match quietBits, line with
  | none, _ => .frame
  | some _, .dominant => .outside 0
  | some bits, .recessive => .quiet bits

/-- The line monitor, with the line at a level since so many bit times (R172, R173; log 9, log 55). -/
def Bsc.monitor (c : Bsc) (line : LineLevel) (heldBits : Nat) : Bsc :=
  match line with
  | .dominant => { c with dominant := dominantAfter c.linkStuck heldBits, recovery := none }
  | .recessive => { c with dominant := none, recovery := recoveryAfter c.linkStuck heldBits }

/-- The line monitor where the line is recessive outside a frame since so many bit times, of which it knew before. It runs on
where the count has grown, and a fallen count tells of a dominant bit, which starts the recovery timer again (R173). -/
def Bsc.sawRecessive (c : Bsc) (before bits : Nat) : Bsc :=
  if decide (before ≤ bits) && c.recovery.isSome then { c with dominant := none } else c.monitor .recessive bits

/-- The line monitor where no recessive bit time stands behind the last dominant bit or the last frame: a count fallen to that
tells of a dominant bit (R172, R173). -/
def Bsc.sawDominant (c : Bsc) (before : Nat) : Bsc :=
  if before == 0 then c
  else { c with dominant := if c.dominant.isSome then c.dominant else dominantAfter c.linkStuck 0, recovery := none }

/-- The line seen recessive outside a frame for so many bit times; a frame on the line stays there until its end (R159). -/
def Bsc.sawQuiet (c : Bsc) (bits : Nat) : Bsc :=
  match c.watch with
  | .frame => c
  | .outside before =>
    { (if bits == 0 then c.sawDominant before else c.sawRecessive before bits) with watch := .quiet bits }

/-- A run of bits on the line taken by the line monitor: the level of the last bit, held since it changed to it (R172, R173). -/
def Bsc.sawBits (c : Bsc) (bits : List Bool) : Bsc :=
  let (level, held) := lastRun bits
  c.monitor (if level then .recessive else .dominant) held

/-- A frame on the line has ended: its last bits tell the line monitor, and the count of recessive bit times begins (R159, R172,
R173; log 9, log 50). -/
def Bsc.frameEnded (c : Bsc) (f : Frame) : Bsc :=
  { c.sawBits (frameBits f) with watch := .outside 0, ownError := false }

/-! ## The transmitter -/

/-- The BSC beginning an attempt on the first entry of its queue (R166): its start bit puts a frame on the line and starts the
dominant timer (R159, R172). -/
def Bsc.begin (c : Bsc) : Bsc :=
  match c.queue with
  | [] => c
  | e :: rest =>
    { c with queue := { e with inAttempt := true } :: rest
             attempt := some { sent := e.bulletin, replaced := false }, ownError := false, watch := .frame
             dominant := dominantAfter c.linkStuck 0, recovery := none }

/-- Whether the transmitter may begin an attempt (R166). -/
def Bsc.mayBegin (c : Bsc) : Bool :=
  !c.halted && c.attempt.isNone && !c.queue.isEmpty && c.watch.idle

/-- The transmitter's turn, the line having been recessive outside a frame for so many bit times (R159, R166). -/
def Bsc.tryBegin (c : Bsc) (quietBits : Nat) : Bsc :=
  let seen := c.sawQuiet quietBits
  if seen.mayBegin then seen.begin else seen

/-- The BSC with the attempt ended and its entry at its place, not counted (R161, R172). -/
def Bsc.endAttempt (c : Bsc) : Bsc :=
  { c with queue := c.queue.map fun e => { e with inAttempt := false }, attempt := none }

/-- The contention bit of this station's frame at a place of the field, bit 0 first on the line (R161). -/
def contentionBit (b : Bulletin) (sender : StationId) (bit : Fin 7) : Bool :=
  (contentionField b.cls sender).getMsbD bit.val

/-- The BSC yielding at a bit of the contention field: the line has carried the bits that it sent before, and reads dominant at
this one (R161, R172). -/
def Bsc.yieldAt (c : Bsc) (b : Bulletin) (sender : StationId) (bit : Fin 7) : Bsc :=
  c.endAttempt.sawBits (false :: (bitsOf (contentionField b.cls sender)).take bit.val ++ [false])

/-- The entry in an attempt after a bit error: its count raised, unless a newer VIEW has replaced it (R162, R164). -/
def TxEntry.countError (e : TxEntry) (replaced : Bool) : TxEntry :=
  if replaced then { e with inAttempt := false } else { e with inAttempt := false, attempts := e.attempts + 1 }

/-- The queue after a bit error: the entry in the attempt counted, and removed at its fourth (R162). -/
def txError (q : List TxEntry) (replaced : Bool) : List TxEntry :=
  (q.map fun e => if e.inAttempt then e.countError replaced else e).filter fun e => decide (e.attempts < 4)

/-- The BSC after its own bit error, the entry counted (R162). A start bit read recessive has put no frame on the line, which is
as idle as before; after any other the receiver goes on decoding the frame (R159, R169; log 21, log 50). -/
def Bsc.bitError (c : Bsc) (replaced startBit : Bool) : Bsc :=
  let ended := { c with queue := txError c.queue replaced, attempt := none, ownError := !startBit }
  if startBit then { ended.monitor .recessive idleBits with watch := .outside idleBits } else ended

/-- The state after this station's bit error (R162). -/
def State.bitErrorNow (s : State) (a : Attempt) (startBit : Bool) : State :=
  let lost := (s.bsc.queue.any fun e => e.inAttempt && decide (4 ≤ (e.countError a.replaced).attempts))
  let s' := s.withBsc (s.bsc.bitError a.replaced startBit)
  if lost then s'.onset .txFailed (byteOf a.sent.kindCode.toNat) (.lost .attempts) true else s'

/-- The queue after a completed frame: its entry leaves, or stays where a newer VIEW has replaced it (R164, R167). -/
def txComplete (q : List TxEntry) (replaced : Bool) : List TxEntry :=
  if replaced then q.map fun e => { e with inAttempt := false } else q.filter fun e => !e.inAttempt

/-- A bulletin placed in the Receive FIFO, or lost where the FIFO holds 8 (R168). -/
def State.place (s : State) (b : Bulletin) (src : Source) (behind : Bool := false) : State :=
  if s.bsc.fifo.length < 8 then s.withBsc { s.bsc with fifo := s.bsc.fifo ++ [{ bulletin := b, src := src }] }
  else s.receiveLoss behind

/-- The state after this station's frame completes (R167). -/
def State.completeNow (s : State) (a : Attempt) : State :=
  (s.withBsc { s.bsc.frameEnded (assemble s.number a.sent) with
    queue := txComplete s.bsc.queue a.replaced, attempt := none }).place
    a.sent { sender := s.number, origin := .loopback }

/-! ## The receiver -/

/-- The kinds of a duplicate-station bulletin that are placed in the Receive FIFO (R171). -/
def Bulletin.placedAsDuplicate (b : Bulletin) : Bool :=
  match b with
  | .claim .. | .zoneReport .. | .override .. => true
  | _ => false

/-- A complete frame with this station's number that its transmitter did not carry to completion (R171). A receive loss in it is
reported behind a late DUPLICATE-STATION (R177; log 51). -/
def State.takeDuplicate (s : State) (b : Bulletin) : State :=
  let subject := byteOf s.number.val
  let starts := s.bsc.duplicate.isNone
  let s1 := if starts then s.onset .duplicateStation subject (s.stationDetail s.number) false else s
  let s2 := s1.withBsc { s1.bsc with duplicate := s.absenceTime }
  if b.placedAsDuplicate then
    s2.place b { sender := s.number, origin := .received } (starts && s.flu.isLate .duplicateStation subject)
  else s2

/-- A complete frame of another transmitter, with the bulletin it carries (R168, R171). -/
def State.receive (s : State) (f : Frame) (b : Bulletin) : State :=
  let s' := s.withBsc (s.bsc.frameEnded f)
  if f.sender == s.number then s'.takeDuplicate b else s'.place b { sender := f.sender, origin := .received }

/-- A frame discarded with an error: a receive loss, unless this station's own attempt ended in a bit error in it, or it was
broken off while the transmitter is halted (R169; log 21). -/
def State.discard (s : State) (f : Frame) (brokenOff : Bool) : State :=
  let s' := s.withBsc (s.bsc.frameEnded f)
  if s.bsc.ownError || (s.bsc.halted && brokenOff) then s' else s'.receiveLoss

/-- The bulletins of the Receive FIFO handed at a tick, in FIFO order (R168; log 3). -/
def Bsc.hand (c : Bsc) : Bsc :=
  { c with handed := c.handed ++ c.fifo, fifo := [] }

/-! ## Holdoff and duplicate timers -/

/-- The sync holdoff expires (R170). -/
def State.holdoffExpiry (s : State) : State :=
  if s.bsc.syncDue then (s.withBsc { s.bsc with syncDue := false, holdoff := holdoffTime }).queue .syncRequest
  else s.withBsc { s.bsc with holdoff := none }

/-- The duplicate timer expires (R171). -/
def State.duplicateExpiry (s : State) : State :=
  (s.withBsc { s.bsc with duplicate := none }).clear .duplicateStation (byteOf s.number.val)

/-! ## The stuck line and the link restart -/

/-- The line after the frame in decoding is abandoned: no more bits of it are taken, and the next start bit waits for an idle
line (R159, R174). -/
def LineWatch.abandoned (w : LineWatch) : LineWatch :=
  match w with
  | .frame => .outside 0
  | .outside bits => .outside bits

/-- The queues emptied by a link restart, the frame in decoding abandoned (R174). -/
def Bsc.restart (c : Bsc) : Bsc :=
  { c with queue := [], attempt := none, fifo := [], ownError := false, watch := c.watch.abandoned }

/-- A link restart (R174). -/
def State.linkRestart (s : State) : State :=
  ((s.withBsc s.bsc.restart).queueSync).ageLinkRestart

/-- The onset of LINK-STUCK, the line dominant for longer than any frame (R159), handed to the FLU, the PRM and the OVU in this
order (R172; log 5). -/
def State.lineStuck (s : State) : State :=
  let s1 := s.withBsc { s.bsc.endAttempt with linkStuck := true, dominant := none, recovery := none, watch := .outside 0 }
  ((s1.onset .linkStuck 255 .none false).prmLinkStuck).startLocalApply

/-- The clear of LINK-STUCK after the link restart, the line recessive for longer than makes it idle (R159), handed to the FLU,
the PRM and the OVU in this order (R173; log 5). -/
def State.lineRecovered (s : State) : State :=
  let s1 := s.linkRestart
  let s2 := s1.withBsc { s1.bsc with linkStuck := false, dominant := none, recovery := none, watch := .outside idleBits }
  ((s2.clear .linkStuck 255).prmLinkClear).endLocalApply

/-! ## The expiries of the line monitor -/

/-- The line monitor reads the line (R172, R173; log 9). -/
def State.monitorLine (s : State) (line : LineLevel) (heldBits : Nat) : State :=
  s.withBsc (s.bsc.monitor line heldBits)

/-- The expiry of the dominant timer acted on (R172). -/
def State.dominantExpiry (s : State) : State :=
  if timerDue s.bsc.dominant && !s.bsc.linkStuck then s.lineStuck else s

/-- The expiry of the recovery timer acted on (R173). -/
def State.recoveryExpiry (s : State) : State :=
  if timerDue s.bsc.recovery && s.bsc.linkStuck then s.lineRecovered else s

end Sys2Proof.Machine
end

