-- ==== Sys2Proof/Machine/Take.lean ====
section
/-! DEFINITION. A bulletin taken from those handed, by the Presence Monitor and its owner (R168), and the tick (R192): timers
counted, inputs sampled, the Receive FIFO handed. -/

namespace Sys2Proof.Machine

/-! ## Taking a bulletin -/

/-- The state without the bulletin at the front of those handed, where it is this one and the station takes
bulletins (R168; log 3). -/
def State.takeFront (s : State) (b : Bulletin) (src : Source) : Option State :=
  match s.bsc.handed with
  | [] => none
  | e :: rest =>
    if s.isActive && e == { bulletin := b, src := src } then some (s.withBsc { s.bsc with handed := rest }) else none

/-- A bulletin taken by the Presence Monitor and its owner in an order (R66, R73; log 4, log 6). -/
def State.takeBoth (s : State) (order : TakeOrder) (prm : State → State) (owner : State → State × List Notice) : State :=
  match order with
  | .presenceFirst =>
    let r := owner (prm s)
    r.1.takeNotices r.2
  | .ownerFirst =>
    let r := owner s
    prm (r.1.takeNotices r.2)
  | .noticesLast =>
    let r := owner s
    (prm r.1).takeNotices r.2

/-- A bulletin taken whole from the front of those handed; the state unchanged where it is not there (R168). -/
def State.takeBulletin (s : State) (b : Bulletin) (src : Source) (order : TakeOrder) (prm : State → State)
    (owner : State → State × List Notice) : State :=
  match s.takeFront b src with
  | none => s
  | some s' => s'.takeBoth order prm owner

/-! ## Timers at a tick -/

/-- A timer counted in ticks, one tick later. -/
def tickDown (t : Timer) : Timer :=
  timerCount t 1

/-- A detection line one tick later. -/
def LineRecord.tick (r : LineRecord) : LineRecord :=
  { r with timer := tickDown r.timer, window := tickDown r.window }

/-- A command line one tick later. -/
def CommandRecord.tick (r : CommandRecord) : CommandRecord :=
  { r with timer := tickDown r.timer }

/-- The LIU one tick later. -/
def Liu.tick (u : Liu) : Liu :=
  { u with
    lines := Vector.ofFn fun l => (u.lines[l]).tick
    commands := Vector.ofFn fun l => (u.commands[l]).tick
    session := u.session.map fun x => { x with timer := tickDown x.timer } }

/-- The PRM one tick later. -/
def Prm.tick (u : Prm) : Prm :=
  { u with
    table := Vector.ofFn fun n => { u.table[n] with age := tickDown (u.table[n]).age }
    joinWait := tickDown u.joinWait, viewPeriod := tickDown u.viewPeriod, solo := tickDown u.solo }

/-- The STS one tick later. -/
def Sts.tick (u : Sts) : Sts :=
  { u with stepTimer := tickDown u.stepTimer, repeatTimer := tickDown u.repeatTimer }

/-- A settle interval at a tick with a sample: stopped by the filtered level, started with 0.1 s by the other, else counted
on (R111, R126). -/
def settleTick (t : Timer) (filtered sample : Level) : Timer :=
  if sample == filtered then none
  else
    match t with
    | none => startTenths 1
    | some left => some (left - 1)

/-- A point record one tick later, its inputs sampled (R111, R126). -/
def PointRecord.tick (r : PointRecord) (a b : Level) : PointRecord :=
  match r with
  | .unused u => .unused { u with limitA := a, limitB := b }
  | .damper d =>
    .damper { d with
      travel := tickDown d.travel, settleA := settleTick d.settleA d.limitA a, settleB := settleTick d.settleB d.limitB b }
  | .fan f =>
    .fan { f with
      prove := tickDown f.prove, flow := tickDown f.flow, run := tickDown f.run
      uncommandedTimer := tickDown f.uncommandedTimer, settleB := settleTick f.settleB f.inputB b }

/-- The PTC one tick later. -/
def Ptc.tick (u : Ptc) (x : TickSamples) : Ptc :=
  { u with points := Vector.ofFn fun p => (u.points[p]).tick x.inputA[p] x.inputB[p], gap := tickDown u.gap }

/-- A measurement record one tick of 10 ms later (R143; log 10). -/
def Pmu.tick (m : Pmu) : Pmu :=
  { m with noEdge := timerCount m.noEdge 10 }

/-- The BSC one tick later: holdoff and duplicate timers, the line as sampled, the line monitor, the FIFO handed (R159, R168, R170
to R173). A line dominant already when the BSC begins reading it counts toward the 4 ms from its last change, though the BSC has
seen none: the model's choice (R172, R175; log 55). -/
def Bsc.tick (c : Bsc) (x : TickSamples) : Bsc :=
  ({ c with
      holdoff := tickDown c.holdoff, duplicate := tickDown c.duplicate
      watch := .sampled x.line x.quietBits }.monitor x.line x.heldBits).hand

/-- The timers and the time one tick later, the inputs sampled (R192). -/
def State.countTick (s : State) (x : TickSamples) : State :=
  { s with
    liu := s.liu.tick
    age := { s.age with window := tickDown s.age.window }
    prm := s.prm.tick
    sts := s.sts.tick
    ptc := s.ptc.tick x
    pmu := Vector.ofFn fun p => (s.measure p).tick
    bsc := s.bsc.tick x
    cfl := { s.cfl with ticks := s.cfl.ticks + 1, millis := 0 } }

/-- The station one tick later, the onsets on the way taken by the FLU (R178, R192; log 51). -/
def State.tick (s : State) (x : TickSamples) : State :=
  (s.countTick x).takeLateOnsets x.late

end Sys2Proof.Machine
end

