-- ==== Sys2Proof/Machine/Image.lean ====
section
/-! DEFINITION. The configuration image (section 11.2): its header, its records, the checks of R189 in their order, and the
values the blocks read from it. -/

namespace Sys2Proof.Machine

/-! ## Bytes -/

/-- A byte of a list as a number; 255 beyond its end, as a memory that does not answer reads (R188). -/
def u8 (bytes : List Byte) (i : Nat) : Nat :=
  (bytes.getD i 255).toNat

/-- A two-byte number of a list, most significant byte first. -/
def u16 (bytes : List Byte) (i : Nat) : Nat :=
  u8 bytes i * 256 + u8 bytes (i + 1)

/-- A four-byte number of a list, most significant byte first. -/
def u32 (bytes : List Byte) (i : Nat) : Nat :=
  u16 bytes i * 65536 + u16 bytes (i + 2)

/-- A number as an index of a table, taken modulo its size; the checks of R189 have bounded it. -/
def idx (n : Nat) [NeZero n] (value : Nat) : Fin n :=
  Fin.ofNat n value

/-! ## Header -/

/-- The image length of a header (section 11.2). -/
def imageLength (memory : List Byte) : Nat := u16 memory 4

/-- The mall-wide length of a header (section 11.2). -/
def mallLength (memory : List Byte) : Nat := u16 memory 6

/-- The compare count of a header (section 11.2). -/
def headerCount (memory : List Byte) : Nat := u8 memory 8 * 65536 + u16 memory 9

/-- The bytes of the image: so many as its length says, 255 where the memory ends before (R188). -/
def imageBytes (memory : List Byte) : List Byte :=
  (memory ++ List.replicate (imageLength memory - memory.length) 255).take (imageLength memory)

/-- A check that failed: its load result and the offset of the failing header field or record (R189). -/
structure LoadFailure where
  result : Nat
  offset : Nat
deriving DecidableEq, Repr

/-- The format check, with the offset of the header field that fails (R189; log 17). -/
def formatFailure (memory : List Byte) : Option Nat :=
  if u8 memory 0 != 0x5A || u8 memory 1 != 0x53 then some 0
  else if u8 memory 2 != 1 then some 2
  else if imageLength memory < 13 || 8192 < imageLength memory then some 4
  else if imageLength memory - 13 < mallLength memory then some 6
  else none

/-! ## Records -/

/-- A record with its offset in the image (section 11.2). -/
structure RawRecord where
  offset : Nat
  kind : Nat
  content : List Byte
deriving DecidableEq, Repr

/-- Byte i of a record's content. -/
def RawRecord.b (r : RawRecord) (i : Nat) : Nat := u8 r.content i

/-- The two-byte number at byte i of a record's content. -/
def RawRecord.w (r : RawRecord) (i : Nat) : Nat := u16 r.content i

/-- Whether a kind belongs to the mall-wide part; none for a kind that is not known (section 11.2). -/
def kindPart (kind : Nat) : Option Bool :=
  match kind with
  | 1 | 2 | 3 | 4 => some true
  | 16 | 17 | 18 | 19 | 20 | 21 => some false
  | _ => none

/-- The content length a record requires (section 11.2). -/
def requiredLength (kind : Nat) (content : List Byte) : Nat :=
  match kind with
  | 1 => 4
  | 2 => 4
  | 3 => 4 + 6 * u8 content 1
  | 4 => 2
  | 16 => 2
  | 17 => 21
  | 18 => 10
  | 19 => 3
  | 20 => 18
  | _ => 4

/-- The records of one part from an offset on, or the offset at which the record check fails (R189). The fuel is the number
of bytes left. -/
def parseRecords (mall : Bool) : Nat → Nat → List Byte → Except Nat (List RawRecord)
  | _, _, [] => .ok []
  | 0, offset, _ :: _ => .error offset
  | _, offset, [_] => .error offset
  | fuel + 1, offset, kind :: length :: rest =>
    let content := rest.take length.toNat
    if kindPart kind.toNat == some mall && content.length == length.toNat
        && length.toNat == requiredLength kind.toNat content then
      match parseRecords mall fuel (offset + 2 + length.toNat) (rest.drop length.toNat) with
      | .ok later => .ok ({ offset := offset, kind := kind.toNat, content := content } :: later)
      | .error e => .error e
    else .error offset

/-- The mall-wide bytes of an image (R191). -/
def mallBytes (image : List Byte) : List Byte :=
  (image.drop 13).take (mallLength image)

/-- The records of an image in image order, or the offset at which the record check fails (R189). -/
def imageRecords (image : List Byte) : Except Nat (List RawRecord) :=
  let mall := mallBytes image
  let loc := image.drop (13 + mallLength image)
  match parseRecords true mall.length 13 mall with
  | .error e => .error e
  | .ok first =>
    match parseRecords false loc.length (13 + mallLength image) loc with
    | .error e => .error e
    | .ok second => .ok (first ++ second)

/-! ## Ranges -/

/-- A value lies between two bounds, both included. -/
def between (low high value : Nat) : Bool :=
  decide (low ≤ value) && decide (value ≤ high)

/-- The actions a fan takes: REST, RUN, STOP (R87). -/
def fanAction (code : Nat) : Bool := between 0 2 code

/-- The actions a damper takes: REST, OPEN, SHUT (R87). -/
def damperAction (code : Nat) : Bool := code == 0 || code == 3 || code == 4

/-- The range check of a SCENARIO record (R58, R87). -/
def scenarioRange (r : RawRecord) : Bool :=
  between 1 31 (r.b 0) && between 1 8 (r.b 1) && between 0 8 (r.b 2) && between 0 31 (r.b 3)
    && (List.range (r.b 1)).all fun k => between 100 6000 (r.w (4 + 6 * k + 4))

/-- The range check of a POINT record; fields its type does not use are not read (section 11.2, R87, R110, R125, R142). -/
def pointRange (r : RawRecord) : Bool :=
  between 0 15 (r.b 0) && (between 0 15 (r.b 2) || r.b 2 == 255) &&
    match r.b 1 with
    | 1 => between 50 2500 (r.w 4) && damperAction (r.b 16) && (damperAction (r.b 17) || r.b 17 == 5)
    | 2 =>
      between 50 1200 (r.w 4) && between 0 1200 (r.w 6) && between 10 300 (r.w 8) && between 0 3 (r.b 10)
        && between 1 15 (r.b 13) && between 20 2000 (r.w 14) && fanAction (r.b 16)
        && (fanAction (r.b 17) || r.b 17 == 5)
    | _ => false

/-- The range check of a COMMAND record; the parameter of an UNUSED line is not read (section 2.7; log 29). -/
def commandRange (r : RawRecord) : Bool :=
  between 0 7 (r.b 0) &&
    match r.b 1 with
    | 0 => true
    | 1 => between 0 1 (r.b 2)
    | 2 | 3 => between 0 15 (r.b 2)
    | _ => false

/-- The range check of a LINE record (section 2.2). -/
def lineRange (r : RawRecord) : Bool :=
  between 0 7 (r.b 0) && (between 0 63 (r.b 1) || r.b 1 == 255) && between 0 1 (r.b 2) && between 0 300 (r.w 3)
    && between 20 600 (r.w 5) && between 3 15 (r.b 7) && between 0 1 (r.b 8) && between 0 1 (r.b 9)

/-- The range check of a SEVERITY record; the entries of CONFIG-BAD and DUPLICATE-STATION are not read (section 11.2). -/
def severityRange (r : RawRecord) : Bool :=
  (List.range 21).all fun i => i == 15 || i == 20 || between 0 3 (r.b i)

/-- Every value of a record lies in the range its chapter gives (R189). -/
def recordRange (r : RawRecord) : Bool :=
  match r.kind with
  | 1 => between 10 100 (r.w 0) && between 20 100 (r.w 2)
  | 2 => between 0 63 (r.b 0) && between 0 31 (r.b 1) && between 1 64 (r.b 2) && between 1 31 (r.b 3)
  | 3 => scenarioRange r
  | 4 => between 0 15 (r.b 0) && between 0 31 (r.b 1)
  | 16 => between 10 300 (r.w 0)
  | 17 => severityRange r
  | 18 => lineRange r
  | 19 => commandRange r
  | 20 => pointRange r
  | _ => between 0 15 (r.b 0) && between 1 31 (r.b 1) && between 0 5 (r.b 2) && between 1 8 (r.b 3)

/-- What a record describes: no two records may describe the same (R189). -/
def RawRecord.subject (r : RawRecord) : Nat × Nat × Nat :=
  match r.kind with
  | 1 | 16 | 17 => (r.kind, 0, 0)
  | 21 => (r.kind, r.b 0, r.b 1)
  | _ => (r.kind, r.b 0, 0)

/-- The range check over the records in image order, with those already seen (R189). -/
def rangeFailure : List RawRecord → List RawRecord → Option Nat
  | _, [] => none
  | seen, r :: rest =>
    if recordRange r && !seen.any fun x => x.subject == r.subject then rangeFailure (r :: seen) rest
    else some r.offset

/-! ## Cross-checks -/

/-- The record of a kind that describes an item. -/
def findRecord (records : List RawRecord) (kind item : Nat) : Option RawRecord :=
  records.find? fun r => r.kind == kind && r.b 0 == item

/-- The type of a point by its POINT record: 1 DAMPER, 2 FAN, 0 UNUSED without one. -/
def pointType (records : List RawRecord) (point : Nat) : Nat :=
  match findRecord records 20 point with
  | some r => r.b 1
  | none => 0

/-- The step count of a scenario: the reset value without a SCENARIO record (R87, R189). -/
def scenarioSteps (records : List RawRecord) (scenario : Nat) : Nat :=
  match findRecord records 3 scenario with
  | some r => r.b 1
  | none => 1

/-- The offset of the record, among one and another that may be absent, that stands last in image order (R189). -/
def lastOffset (r : RawRecord) (other : Option RawRecord) : Nat :=
  match other with
  | some x => max r.offset x.offset
  | none => r.offset

/-- An action of a POINT-SCENARIO record fits the type of its point (R87). -/
def actionFits (type action : Nat) : Bool :=
  match type with
  | 1 => damperAction action || action == 5
  | 2 => fanAction action || action == 5
  | _ => action == 0 || action == 5

/-- The cross-checks at a ZONE record: unique rank, a line for a home zone, a scenario that has a record (R1, R189). -/
def crossZone (records : List RawRecord) (station : Nat) (r : RawRecord) : List Nat :=
  (records.filterMap fun x =>
    if x.kind == 2 && x.b 2 == r.b 2 && decide (x.offset < r.offset) then some r.offset else none)
  ++ (if r.b 1 == station && !(records.any fun x => x.kind == 18 && x.b 1 == r.b 0) then [r.offset] else [])
  ++ (if (findRecord records 3 (r.b 3)).isNone then [r.offset] else [])

/-- The cross-check at a LINE record: its zone is in use and homed here (R1). -/
def crossLine (records : List RawRecord) (station : Nat) (r : RawRecord) : List Nat :=
  if r.b 1 == 255 then []
  else
    match findRecord records 2 (r.b 1) with
    | some z => if z.b 1 == station then [] else [lastOffset r (some z)]
    | none => [r.offset]

/-- The cross-check at a COMMAND record: a group it names is owned by this station (R150). -/
def crossCommand (records : List RawRecord) (station : Nat) (r : RawRecord) : List Nat :=
  if r.b 1 == 2 || r.b 1 == 3 then
    match findRecord records 4 (r.b 2) with
    | some g => if g.b 1 == station then [] else [lastOffset r (some g)]
    | none => [r.offset]
  else []

/-- The cross-checks at a POINT record: its group has an owner, and a fan's interlock set names dampers alone (R87,
R125). Point n of the interlock set is bit n (log 49). -/
def crossPoint (records : List RawRecord) (r : RawRecord) : List Nat :=
  (if r.b 2 != 255 && (findRecord records 4 (r.b 2)).isNone then [r.offset] else [])
  ++ (if r.b 1 == 2 then
    (List.range 16).filterMap fun p =>
      if (BitVec.ofNat 16 (r.w 11)).getLsbD p && pointType records p != 1 then
        some (lastOffset r (findRecord records 20 p))
      else none
    else [])

/-- The cross-checks at a POINT-SCENARIO record: the action fits the type, the step lies within the program (R87). -/
def crossPointScenario (records : List RawRecord) (r : RawRecord) : List Nat :=
  (if actionFits (pointType records (r.b 0)) (r.b 2) then [] else [lastOffset r (findRecord records 20 (r.b 0))])
  ++ (if r.b 3 ≤ scenarioSteps records (r.b 1) then [] else [lastOffset r (findRecord records 3 (r.b 1))])

/-- The offsets at which a cross-check over a record fails. -/
def crossRecord (records : List RawRecord) (station : Nat) (r : RawRecord) : List Nat :=
  match r.kind with
  | 2 => crossZone records station r
  | 18 => crossLine records station r
  | 19 => crossCommand records station r
  | 20 => crossPoint records r
  | 21 => crossPointScenario records r
  | _ => []

/-- The least of a list of offsets. -/
def least : List Nat → Option Nat
  | [] => none
  | x :: rest =>
    match least rest with
    | none => some x
    | some y => some (min x y)

/-- The cross-checks: the first record in image order at which one fails (R189; log 17). -/
def crossFailure (records : List RawRecord) (station : Nat) : Option Nat :=
  least (records.flatMap (crossRecord records station))

/-! ## The checks in order -/

/-- An accepted image: its bytes and its records. -/
structure LoadedImage where
  bytes : List Byte
  records : List RawRecord
deriving DecidableEq, Repr

/-- The record, range and cross-checks over the whole image (R189). -/
def checkRecords (image : List Byte) (station : Nat) : Except LoadFailure LoadedImage :=
  match imageRecords image with
  | .error offset => .error { result := 5, offset := offset }
  | .ok records =>
    if !between 10000 160000 (headerCount image) then .error { result := 6, offset := 8 }
    else
      match rangeFailure [] records with
      | some offset => .error { result := 6, offset := offset }
      | none =>
        match crossFailure records station with
        | some offset => .error { result := 7, offset := offset }
        | none => .ok { bytes := image, records := records }

/-- The checks of R189 in the order of its table. -/
def checkImage (memory : List Byte) (station : StationId) : Except LoadFailure LoadedImage :=
  match formatFailure memory with
  | some offset => .error { result := 2, offset := offset }
  | none =>
    if u8 memory 3 != station.val then .error { result := 3, offset := 3 }
    else
      let image := imageBytes memory
      if (crcOf (bitsOfBytes (image.drop 13))).toNat != u16 image 11 then .error { result := 4, offset := 11 }
      else checkRecords image station.val

/-! ## What the blocks read from the records -/

/-- An action of its code (section 11.4). -/
def actionOf (code : Nat) : Action :=
  match code with
  | 0 => .give .rest
  | 1 => .give .run
  | 2 => .give .stop
  | 3 => .give .toOpen
  | 4 => .give .toShut
  | _ => .leave

/-- A severity of its code (section 11.4). -/
def severityOf (code : Nat) : Severity :=
  match code with
  | 0 => .masked
  | 1 => .note
  | 2 => .trouble
  | _ => .critical

/-- The configured part of a zone (R1). -/
def zoneConfig (records : List RawRecord) (z : ZoneId) : Option ZoneConfig :=
  match findRecord records 2 z.val with
  | some r => some { home := idx 32 (r.b 1), rank := r.b 2, scenario := idx 32 (r.b 3) }
  | none => none

/-- The entry of a zone at acceptance (R1, R2). -/
def zoneAtStart (records : List RawRecord) (station : StationId) (z : ZoneId) : ZoneEntry :=
  let cfg := zoneConfig records z
  let homed := match cfg with
    | some c => c.home == station
    | none => false
  { cfg := cfg, condition := .quiet, copy := if homed then .home else .unheard, lastReport := none }

/-- The record of a detection line at acceptance, before its first reading (R19). -/
def lineAtStart (records : List RawRecord) (l : LineId) : LineRecord :=
  match findRecord records 18 l.val with
  | none => Liu.reset.lines[l]
  | some r =>
    let zone := if r.b 1 == 255 then none else some (idx 64 (r.b 1))
    let isolated := r.b 9 == 1
    { cfg := { zone := zone, normallyClosed := r.b 2 == 1, confirm := r.w 3, clear := r.w 5, chatterLimit := r.b 7,
               chatterAlarm := r.b 8 == 1, isolatedAtStart := isolated }
      state := if zone.isSome && isolated then .isolated else .normal
      reading := .normal, timer := none, window := none, toggles := 0 }

/-- The function of a command line (section 2.7). -/
def functionAtStart (records : List RawRecord) (l : LineId) : CommandFunction :=
  match findRecord records 19 l.val with
  | none => .unused
  | some r =>
    match r.b 1 with
    | 1 => .standDown (r.b 2 == 1)
    | 2 => .groupOn (idx 16 (r.b 2))
    | 3 => .groupOff (idx 16 (r.b 2))
    | _ => .unused

/-- The record of a command line at acceptance, its levels at the level present (R33). -/
def commandAtStart (records : List RawRecord) (l : LineId) (level : Level) : CommandRecord :=
  let f := functionAtStart records l
  let held := if f == .unused then .broken else level
  { function := f, raw := held, debounced := held, timer := none }

/-- The program of a scenario (R87, R189). -/
def programAtStart (records : List RawRecord) (c : ScenarioId) : Program :=
  match findRecord records 3 c.val with
  | none => Program.reset
  | some r =>
    { stepCount := r.b 1
      steps := Vector.ofFn fun (k : Fin 8) =>
        if k.val < r.b 1 then
          { roster := BitVec.ofNat 32 (u32 r.content (4 + 6 * k.val)), timeout := r.w (4 + 6 * k.val + 4) }
        else { roster := 0, timeout := 1200 }
      escalationCount := r.b 2
      escalationTarget := if r.b 3 == 0 then none else some (idx 32 (r.b 3)) }

/-- The POINT-SCENARIO record of a point in a scenario. -/
def findAction (records : List RawRecord) (p c : Nat) : Option RawRecord :=
  records.find? fun r => r.kind == 21 && r.b 0 == p && r.b 1 == c

/-- The action of a point in a scenario; LEAVE for a used point without a record (R189), the reset value for an UNUSED
one (log 23). -/
def actionAtStart (records : List RawRecord) (p : PointId) (c : ScenarioId) : PointAction :=
  match findAction records p.val c.val with
  | some r => { action := actionOf (r.b 2), step := idx 9 (r.b 3) }
  | none =>
    if pointType records p.val == 0 then { action := .give .rest, step := 0 } else { action := .leave, step := 0 }

/-- The program content of a point (R87). -/
def pointProgramAtStart (records : List RawRecord) (p : PointId) : PointProgram :=
  let scenarios := Vector.ofFn (actionAtStart records p)
  match findRecord records 20 p.val with
  | none => { PointProgram.reset with scenarios := scenarios }
  | some r =>
    { group := if r.b 2 == 255 then none else some (idx 16 (r.b 2))
      normal := actionOf (r.b 16), pre := actionOf (r.b 17), scenarios := scenarios }

/-- The damper of a POINT record at acceptance (R113). -/
def damperAtStart (r : RawRecord) (a b : Level) : Damper where
  energiseToShut := (BitVec.ofNat 8 (r.b 3)).getLsbD 0
  travelLimit := r.w 4
  demand := .rest
  state := restState a b
  drive := false
  travel := none
  limitA := a
  limitB := b
  settleA := none
  settleB := none
  proofLost := false

/-- The dampers that R113 sets up in OPEN. -/
def openAtStart (records : List RawRecord) (x : StartInputs) : PointSet :=
  gather 16 fun p => pointType records p.val == 1 && restState x.inputA[p] x.inputB[p] == .isOpen

/-- The fan of a POINT record at acceptance, before a trip (R128). Point n of the interlock set is bit n (log 49). -/
def fanAtStart (records : List RawRecord) (x : StartInputs) (r : RawRecord) (b : Level) : Fan where
  interlock := BitVec.ofNat 16 (r.w 11)
  proveTime := r.w 4
  runDown := r.w 6
  flowLoss := r.w 8
  restarts := r.b 10
  tripWhenMade := (BitVec.ofNat 8 (r.b 3)).getLsbD 1
  demand := .rest
  state := .stopping
  drive := false
  prove := none
  flow := none
  run := runDownTimer (r.w 6)
  uncommandedTimer := none
  attempts := r.b 10
  unmet := BitVec.ofNat 16 (r.w 11) &&& ~~~(openAtStart records x)
  inputB := b
  settleB := none
  uncommanded := false
  noFlow := false
  flowLost := false

/-- The record of a point at acceptance (R110, R113, R128). -/
def pointAtStart (records : List RawRecord) (x : StartInputs) (p : PointId) : PointRecord :=
  match findRecord records 20 p.val with
  | none => .unused (UnusedPoint.reset x.inputA[p] x.inputB[p])
  | some r =>
    if r.b 1 == 1 then .damper (damperAtStart r x.inputA[p] x.inputB[p])
    else .fan (fanAtStart records x r x.inputB[p])

/-- The measurement record of a point at acceptance: filled and restarted for a fan (R142, R145). The first change of input A
counts from the level it has at acceptance; the spec gives a sampled level for input B alone (log 26). -/
def pmuAtStart (records : List RawRecord) (x : StartInputs) (p : PointId) : Pmu :=
  match findRecord records 20 p.val with
  | some r =>
    if r.b 1 == 2 then
      ({ Pmu.reset with count := r.b 13, threshold := r.w 14, level := x.inputA[p] } : Pmu).restart 0
    else Pmu.reset
  | none => Pmu.reset

/-- The owner of a group (R150). -/
def ownerAtStart (records : List RawRecord) (g : GroupId) : Option StationId :=
  match findRecord records 4 g.val with
  | some r => some (idx 32 (r.b 1))
  | none => none

/-- The severity of a kind at acceptance (R177, R189). -/
def severityAtStart (records : List RawRecord) (i : Fin 21) : Severity :=
  if i.val == 15 || i.val == 20 then .critical
  else
    match records.find? fun r => r.kind == 17 with
    | some r => severityOf (r.b i.val)
    | none => defaultSeverities[i]

/-- The stations a record names: a home station, an owner, the members of rosters (R69). -/
def stationsOf (r : RawRecord) : StationSet :=
  match r.kind with
  | 2 | 4 => insert 0 (r.b 1)
  | 3 => (List.range (r.b 1)).foldl (fun set k => set ||| BitVec.ofNat 32 (u32 r.content (4 + 6 * k))) 0
  | _ => 0

/-- The configured set (R69). -/
def configuredAtStart (records : List RawRecord) : StationSet :=
  records.foldl (fun set r => set ||| stationsOf r) 0

/-- A two-byte value of the one record of a kind, or its default (R189). -/
def timingAtStart (records : List RawRecord) (kind at_ default : Nat) : Nat :=
  match records.find? fun r => r.kind == kind with
  | some r => r.w at_
  | none => default

/-- The digest of an image (R191). -/
def digestOf (image : List Byte) : BitVec 16 :=
  crcOf (bitsOfBytes (mallBytes image))

end Sys2Proof.Machine
end

