-- ==== Sys2Proof/Machine/Startup.lean ====
section
/-! DEFINITION. The start of the station: entries into STARTING (R187), the end of a reset (R188), acceptance with the filling
of every block and JOINING after reset (R77, R189), and rejection into CONFIG-FAULT (R190). -/

namespace Sys2Proof.Machine

/-! ## Resets -/

/-- The FLU at a station reset: what survives it, with the table empty, default severities, the lines driven, and no onset on the
way (R177 to R181, R184; log 51). -/
def Flu.stationReset (f : Flu) : Flu :=
  let emptied : Flu :=
    { f with severities := defaultSeverities, active := [], tableFull := false, late := [], waiting := [] }
  emptied.drive

/-- The CFL at a station reset: the station number alone survives it (R187, R188). -/
def Cfl.stationReset (c : Cfl) : Cfl :=
  { Cfl.reset with station := c.station }

/-- The MNP at a reset; the count of free values drawn runs on (R193, R194). -/
def Mnp.stationReset (m : Mnp) : Mnp :=
  { Mnp.reset with drawn := m.drawn }

/-- A power-on reset; the queue of commands is the model's own and stays (R187). -/
def State.powerOn (s : State) : State :=
  (State.reset.withMnp s.mnp.stationReset).withPending s.pending

/-- A station reset: STARTING from whatever mode, every block at its reset values but for what survives, and the entry
traced with the mode left (R75, R185, R187). -/
def State.stationReset (s : State) : State :=
  ((((State.reset.withFlu s.flu.stationReset).withCfl s.cfl.stationReset).withMnp s.mnp.stationReset).withPending
    s.pending).trace .modeChanged 255 s.prm.mode.code Mode.starting.code

/-- The end of a reset: the straps sampled once and the read of the memory begun (R188). -/
def State.endReset (s : State) (straps : StationId) : State :=
  if s.prm.mode == .starting && s.cfl.stage == .held then
    s.withCfl { s.cfl with station := some straps, stage := .reading }
  else s

/-! ## Rejection -/

/-- Entry into CONFIG-FAULT: the result and the offset held, the mode change traced, CONFIG-BAD reported (R189, R190). -/
def State.reject (s : State) (f : LoadFailure) : State :=
  let s1 := s.withCfl { s.cfl with stage := .done, loadResult := f.result, failingOffset := f.offset }
  let s2 := (s1.setMode .configFault).trace .modeChanged 255 s.prm.mode.code Mode.configFault.code
  s2.onset .configBad 255 .none false

/-! ## Acceptance -/

/-- The CFL at acceptance (R189, R191, R192). -/
def Cfl.accept (c : Cfl) (image : LoadedImage) : Cfl :=
  { c with
    stage := .done, image := image.bytes, digest := some (digestOf image.bytes), loadResult := 1, failingOffset := 0
    compareCount := some (headerCount image.bytes), ticks := 0, millis := 0
    claimWindow := timingAtStart image.records 1 0 30, absence := timingAtStart image.records 1 2 40 }

/-- The LIU filled at acceptance, before the first readings and requests (R19, R29, R33, R35). -/
def liuAtStart (records : List RawRecord) (x : StartInputs) : Liu where
  lines := Vector.ofFn (lineAtStart records)
  session := none
  lastCondition := Vector.replicate 64 .quiet
  commands := Vector.ofFn fun l => commandAtStart records l x.contacts[l]
  lastRequested := Vector.replicate 16 .auto

/-- The STS filled at acceptance; its last reports are the states the PTC has set up (R87, R99). -/
def Sts.accept (u : Sts) (records : List RawRecord) (points : Vector PointRecord 16) : Sts :=
  { u with
    programs := Vector.ofFn (programAtStart records)
    points := Vector.ofFn (pointProgramAtStart records)
    reports := Vector.ofFn fun p => (points[p]).report }

/-- The PRM filled at acceptance: the configured set, and the own entry's digest (R69, R74). -/
def Prm.accept (u : Prm) (records : List RawRecord) (station : StationId) (digest : BitVec 16) : Prm :=
  { u with
    configured := configuredAtStart records
    table := put u.table station { u.table[station] with digest := some digest } }

/-- Every block filled from the image, still in STARTING (R1, R2, R19, R33, R69, R87, R110, R113, R125, R128, R142, R150,
R177). -/
def State.fill (s : State) (image : LoadedImage) (x : StartInputs) : State :=
  let records := image.records
  let points := Vector.ofFn (pointAtStart records x)
  { s with
    cfl := s.cfl.accept image
    ztu := { s.ztu with zones := Vector.ofFn (zoneAtStart records s.number) }
    liu := liuAtStart records x
    sts := s.sts.accept records points
    ptc := { s.ptc with points := points, startGap := timingAtStart records 16 0 50 }
    pmu := Vector.ofFn (pmuAtStart records x)
    ovu := { s.ovu with table := Vector.ofFn fun g => { s.group g with owner := ownerAtStart records g } }
    prm := s.prm.accept records s.number (digestOf image.bytes)
    flu := { s.flu with severities := Vector.ofFn (severityAtStart records) } }

/-- Entry into JOINING after reset (R77, R82). -/
def State.enterJoiningAfterReset (s : State) : State :=
  let s1 := (s.setMode .joiningAfterReset).queueSync
  let table := Vector.ofFn fun n =>
    if n == s.number then s.presence n else { s.presence n with age := s.absenceTime }
  (s1.withPrm { s1.prm with
    table := table, joinWait := joinWaitTime, viewPeriod := viewPeriodTime, solo := s.absenceTime }).handMode
    s.prm.mode

/-- What a point reports at its set-up, taken in JOINING: DAMPER-LIMITS of a damper set up in LIMIT-CONFLICT, and the trip
event of a fan whose trip level is active (R113, R128; log 18). -/
def State.startPoint (s : State) (p : PointId) : State :=
  match s.point p with
  | .unused .. => s
  | .damper d => if d.state == .limitConflict then s.pointFaults p [] [.damperLimits] else s
  | .fan f => if tripActive f.tripWhenMade f.inputB then s.settleFan p f f.trip else s

/-- The first reading of a line that is not ISOLATED (R19). -/
def State.firstReading (x : StartInputs) (s : State) (l : LineId) : State :=
  if (s.line l).state == .isolated then s else (s.takeBand l x.bands[l]).1

/-- What is taken in JOINING after the filling (R189). The spec gives these events no order among themselves; the model takes
the points' set-ups in increasing number, the first readings of lines 0 to 7 each with its zone derived anew, the first
conditions of all zones, the first requests of the own groups in increasing number, and last the point reports (R29,
R35, R152; log 40). In JOINING the ZTU hands no alarm notice (R12). -/
def State.takeFirsts (s : State) (x : StartInputs) : State :=
  let s1 := sweep (List.finRange 16) State.startPoint s
  let s2 := sweep (List.finRange 8) (State.firstReading x) s1
  let s3 := sweep (List.finRange 64) (fun t z => (t.rederive z).1) s2
  (sweep (List.finRange 16) State.deriveGroup s3).takeReports

/-- The image accepted (R77, R189). -/
def State.acceptImage (s : State) (image : LoadedImage) (x : StartInputs) : State :=
  ((s.fill image x).enterJoiningAfterReset).takeFirsts x

/-- The read of the memory completes: the image is checked and accepted or rejected (R189, R190). -/
def State.loadImage (s : State) (x : StartInputs) : State :=
  match checkImage x.memory s.number with
  | .error f => s.reject f
  | .ok image => s.acceptImage image x

end Sys2Proof.Machine
end

