-- ==== Sys2Proof/Machine/Window.lean ====
section
/-! DEFINITION. The maintenance window (R193): every area of the map as the bytes it presents, and the byte at an
address. -/

namespace Sys2Proof.Machine

/-! ## Fields -/

/-- A number as two bytes, most significant first. -/
def two (value : Nat) : List Byte :=
  let w := BitVec.ofNat 16 value
  [hiByte w, loByte w]

/-- A number as three bytes, most significant first. -/
def three (value : Nat) : List Byte :=
  byteOf (value / 65536) :: two value

/-- A number as four bytes, most significant first. -/
def four (value : Nat) : List Byte :=
  two (value / 65536) ++ two value

/-- So many bytes of 255. -/
def blank (count : Nat) : List Byte :=
  List.replicate count 255

/-- Bytes filled with 255 up to a size (R193). -/
def padTo (size : Nat) (bytes : List Byte) : List Byte :=
  bytes ++ blank (size - bytes.length)

/-- A flag: 1 when set and 0 when clear (R193). -/
def flag (b : Bool) : Byte :=
  if b then 1 else 0

/-- One of two listed values: 0 for the first and 1 for the second (R193; log 15). -/
def firstOf (isFirst : Bool) : Byte :=
  if isFirst then 0 else 1

/-- A contact level, listed made before broken (R110; log 15). -/
def levelCode (l : Level) : Byte :=
  firstOf (l == .made)

/-- A time in tenths, or never (R193). -/
def timeField (t : Option Nat) : List Byte :=
  match t with
  | none => blank 2
  | some v => if v % 65536 == 65535 then two 65534 else two v

/-- A quantity in a unit, so many of which make one shown; the rounding of a part is free (R193; log 12). -/
def shown (draw value per : Nat) : Nat :=
  if value % per == 0 then value / per
  else if Config.freeRoundsUp draw value then value / per + 1 else value / per

/-- A remaining time counted in ticks, in tenths of a second; 65535 while stopped (R193). -/
def remaining (draw : Nat) (t : Timer) : List Byte :=
  match t with
  | none => blank 2
  | some ticks => two (shown draw ticks 10)

/-- A remaining time of the line monitor, counted in bit times of 16 microseconds, in milliseconds (R193). -/
def remainingBits (draw : Nat) (t : Timer) : List Byte :=
  match t with
  | none => blank 2
  | some bits => two (shown draw (bits * 16) 1000)

/-- A two-byte field whose values fill its width, behind the flag byte that reads 1 while it holds a value (R193; log 44). -/
def flagged (w : Option (BitVec 16)) : List Byte :=
  match w with
  | none => [0, 255, 255]
  | some v => [1, hiByte v, loByte v]

/-- A duration in milliseconds, or none, behind its flag byte (R193; log 12, log 44). -/
def duration (draw : Nat) (d : Option Nat) : List Byte :=
  flagged (d.map fun ms => if ms < 65536 then BitVec.ofNat 16 ms else Config.freeDuration draw ms)

/-- A list of items: a count and room for its greatest number of entries (R193; log 14). -/
def listField (room : Nat) (items : List Byte) : List Byte :=
  byteOf items.length :: padTo room items

/-- A demand and its source in one byte (R193). -/
def demandByte (e : DemandEntry) : Byte :=
  (e.demand.code <<< 4) ||| e.source.code

/-- The bytes of the items of a table in item order. -/
def tableField (n : Nat) (f : Fin n → List Byte) : List Byte :=
  (List.finRange n).flatMap f

/-! ## Areas -/

/-- The identity area, 0x0000. -/
def State.identityArea (s : State) : List Byte :=
  [stationByte s.cfl.station, s.prm.mode.code, byteOf s.cfl.loadResult] ++ two s.cfl.failingOffset
  ++ (match s.cfl.digest with
      | some d => [hiByte d, loByte d]
      | none => blank 2)
  ++ (match s.cfl.compareCount with
      | some c => three c
      | none => blank 3)
  ++ four s.now
  ++ [if s.cfl.compareCount.isSome then 1 else 255]

/-- The command area, 0x0010 (R194). -/
def State.commandArea (s : State) : List Byte :=
  [s.mnp.command, s.mnp.argHigh, s.mnp.argLow, s.mnp.result]

/-- A list of zones. -/
def zoneList (zones : List ZoneId) : List Byte :=
  listField 8 (zones.map fun z => byteOf z.val)

/-- The Scenario Record, 0x0020 (R67). -/
def State.scenarioArea (s : State) : List Byte :=
  let a := s.age
  let v := a.view
  [hiByte v.epoch, loByte v.epoch, v.phase.code.setWidth 8, flag v.escalated, zoneByte v.origin, byteOf v.scenario.val,
    byteOf v.step.val, flag v.established, flag a.void]
  ++ zoneList a.candidates ++ zoneList a.subsequent ++ remaining s.mnp.drawn a.window ++ flagged a.escalationEpoch

/-- The code of a completion, in the order of R95. -/
def Completion.code (c : Completion) : Byte :=
  match c with
  | .opened => 0
  | .barrier => 1
  | .forced => 2
  | .caughtUp => 3

/-- The step record and the Step Completion Table, 0x0060 (R109). -/
def State.stepArea (s : State) : List Byte :=
  let u := s.sts
  [byteOf u.step.val] ++ remaining s.mnp.drawn u.stepTimer ++ four u.expected.toNat ++ [flag u.ownSettled]
  ++ remaining s.mnp.drawn u.repeatTimer
  ++ [hiByte u.epoch, loByte u.epoch, byteOf u.scenario.val, flag u.established]
  ++ tableField 8 fun k =>
      four (u.rows[k]).heard.toNat ++ four (u.rows[k]).withFaults.toNat ++ [(u.rows[k]).completion.code]

/-- A Zone Table entry in four bytes (section 11.4). Bits 6 and 5 of the first, which the table does not give, read 0
(log 14). -/
def ZoneEntry.bytes (e : ZoneEntry) : List Byte :=
  let last := (e.condition.code <<< 4) ||| e.copy.code
  match e.cfg with
  | some c => [byteOf (128 + c.home.val), byteOf c.rank, byteOf c.scenario.val, last]
  | none => [0, 0, 0, last]

/-- The Zone Table, 0x0100. -/
def State.zoneArea (s : State) : List Byte :=
  tableField 64 fun z => (s.zone z).bytes

/-- The last report times, 0x0200. -/
def State.reportTimeArea (s : State) : List Byte :=
  tableField 64 fun z => timeField (s.zone z).lastReport

/-- A detection line (R36). -/
def LineRecord.bytes (r : LineRecord) (draw : Nat) : List Byte :=
  [zoneByte r.cfg.zone, r.state.code, r.reading.code, byteOf r.toggles] ++ remaining draw r.timer
  ++ remaining draw r.window

/-- The code of a command line's function (section 11.2; log 15). -/
def CommandFunction.code (f : CommandFunction) : Byte :=
  match f with
  | .unused => 0
  | .standDown _ => 1
  | .groupOn _ => 2
  | .groupOff _ => 3

/-- The walk-test session (R36). -/
def sessionBytes (x : Option Session) (draw : Nat) : List Byte :=
  match x with
  | some y => [1, y.lines] ++ remaining draw y.timer
  | none => [0, 0, 255, 255]

/-- A per-group field: 255 for a group this station does not own (R193). -/
def State.ownGroupByte (s : State) (g : GroupId) (b : Byte) : Byte :=
  if s.ownsGroup g then b else 255

/-- Detection lines, session, command lines, requested group modes, 0x0280 (R36). -/
def State.lineArea (s : State) : List Byte :=
  tableField 8 (fun l => (s.line l).bytes s.mnp.drawn) ++ sessionBytes s.liu.session s.mnp.drawn
  ++ tableField 8 (fun l =>
      let r := s.liu.commands[l]
      [r.function.code, levelCode r.raw, levelCode r.debounced])
  ++ tableField 16 fun g => [s.ownGroupByte g (s.liu.lastRequested[g]).code]

/-- A last VIEW summary (R68). -/
def summaryBytes (x : Option Summary) : List Byte :=
  match x with
  | none => blank 10
  | some v =>
    [hiByte v.epoch, loByte v.epoch, v.phase.setWidth 8, flag v.escalated, flag v.established, v.origin, v.scenario,
      v.step, v.mode.setWidth 8, flag v.trouble]

/-- A presence entry in sixteen bytes (R86); the last digest stands behind its flag byte (R193). -/
def PresenceEntry.bytes (e : PresenceEntry) : List Byte :=
  [e.state.code] ++ timeField e.lastHeard ++ summaryBytes e.summary ++ flagged e.digest

/-- The Presence Table, 0x0300. -/
def State.presenceArea (s : State) : List Byte :=
  tableField 32 fun n => (s.presence n).bytes

/-- The Override Table, requested modes, rotation position and local-apply, 0x0500 (R158). -/
def State.overrideArea (s : State) : List Byte :=
  tableField 16 (fun g =>
    [stationByte (s.group g).owner, (s.group g).mode.code, flag (s.group g).stale] ++ timeField (s.group g).lastHeard)
  ++ tableField 16 (fun g => [s.ownGroupByte g (s.ovu.requested[g]).code])
  ++ [(match s.ovu.rotation with
        | some g => byteOf g.val
        | none => 255), flag s.ovu.localApply]

/-- The Demand Table, the frozen demands and two flags, 0x0580 (R109). -/
def State.demandArea (s : State) : List Byte :=
  tableField 16 (fun p => [demandByte s.sts.demands[p]]) ++ tableField 16 (fun p => [demandByte s.sts.frozen[p]])
  ++ [flag s.sts.viewSettled, flag s.sts.standDownPending]

/-- The station mode, the PRM's times and the configured set, 0x05C0 (R86). -/
def State.modeArea (s : State) : List Byte :=
  [s.prm.mode.code] ++ remaining s.mnp.drawn s.prm.joinWait ++ remaining s.mnp.drawn s.prm.viewPeriod
  ++ remaining s.mnp.drawn s.prm.solo ++ four s.prm.configured.toNat

/-- A damper record (R124). -/
def Damper.bytes (d : Damper) (draw : Nat) : List Byte :=
  [1, flag d.energiseToShut] ++ two d.travelLimit
  ++ [d.demand.code, d.state.code, firstOf d.drive, levelCode d.limitA, levelCode d.limitB] ++ remaining draw d.travel
  ++ [flag d.proofLost]

/-- A fan record (R149). -/
def Fan.bytes (f : Fan) (draw : Nat) : List Byte :=
  [2] ++ two f.interlock.toNat ++ two f.proveTime ++ two f.runDown ++ two f.flowLoss
  ++ [byteOf f.restarts, flag f.tripWhenMade, f.demand.code, f.state.code, firstOf f.drive,
      firstOf (tripActive f.tripWhenMade f.inputB)]
  ++ remaining draw f.prove ++ remaining draw f.flow ++ remaining draw f.run ++ remaining draw f.uncommandedTimer
  ++ [byteOf f.attempts] ++ two f.unmet.toNat ++ [flag f.uncommanded]

/-- A point record in 32 bytes (R124, R149; an UNUSED point, log 15). -/
def PointRecord.bytes (r : PointRecord) (draw : Nat) : List Byte :=
  padTo 32 (match r with
    | .unused .. => [0]
    | .damper d => d.bytes draw
    | .fan f => f.bytes draw)

/-- The point records, 0x0600. -/
def State.pointArea (s : State) : List Byte :=
  tableField 16 fun p => (s.point p).bytes s.mnp.drawn

/-- The average shown of a measurement record: where its list is full (R149). -/
def Pmu.shownAverage (m : Pmu) : Option Nat :=
  if m.periods.length == m.count then some (averageOf m.periods) else none

/-- The no-edge time that remains so many milliseconds after the last tick, in milliseconds (R149, R193; log 10). -/
def noEdgeBytes (millis : Nat) (t : Timer) : List Byte :=
  match t with
  | none => blank 2
  | some ms => two (ms - millis)

/-- A measurement record in sixteen bytes (R149). Proven is listed yes before no (R142; log 15); the average and the last
durations stand behind their flag bytes (R193; log 44). -/
def Pmu.bytes (m : Pmu) (draw millis : Nat) : List Byte :=
  [byteOf m.count] ++ two m.threshold ++ [firstOf m.proven, byteOf m.periods.length] ++ duration draw m.shownAverage
  ++ duration draw m.lastHigh ++ duration draw m.lastLow ++ noEdgeBytes millis m.noEdge

/-- The measurement records, sixteen bytes each, 255 for a point that is not a fan, 0x0800. -/
def State.pmuArea (s : State) : List Byte :=
  tableField 16 fun p => if (s.point p).isFan then (s.measure p).bytes s.mnp.drawn s.cfl.millis else blank 16

/-- An entry of the Transmit Queue (R176). -/
def TxEntry.bytes (e : TxEntry) : List Byte :=
  [e.bulletin.kindCode.setWidth 8, e.bulletin.cls.setWidth 8, byteOf e.attempts, flag e.inAttempt]

/-- The transmitter's condition: waiting, in an attempt, or halted (R176). -/
def Bsc.condition (c : Bsc) : Byte :=
  if c.halted then 2 else if c.attempt.isSome then 1 else 0

/-- The Start Queue, the fan in STARTING, the start gap, and the BSC, 0x0900 (R149, R176). -/
def State.queueArea (s : State) : List Byte :=
  listField 16 (s.ptc.startQueue.map fun p => byteOf p.val)
  ++ [(match s.ptc.startingFan with
        | some p => byteOf p.val
        | none => 255)]
  ++ remaining s.mnp.drawn s.ptc.gap
  ++ [byteOf s.bsc.queue.length] ++ padTo 32 (s.bsc.queue.flatMap TxEntry.bytes)
  ++ [byteOf s.bsc.fifo.length, s.bsc.condition, flag s.bsc.linkStuck]
  ++ remainingBits s.mnp.drawn s.bsc.dominant ++ remainingBits s.mnp.drawn s.bsc.recovery
  ++ [flag s.bsc.syncDue] ++ remaining s.mnp.drawn s.bsc.holdoff ++ remaining s.mnp.drawn s.bsc.duplicate

/-- An Active Fault Table entry in eight bytes (R186). -/
def FaultEntry.bytes (e : FaultEntry) : List Byte :=
  padTo 8 ([byteOf e.kind.code, e.subject, e.severity.code] ++ timeField (some e.onset))

/-- The Active Fault Table entries, 0x0A00. -/
def State.faultArea (s : State) : List Byte :=
  s.flu.active.flatMap FaultEntry.bytes

/-- A subject detail in five bytes (R179, R193). -/
def Detail.bytes (d : Detail) : List Byte :=
  padTo 5 (match d with
    | .none => []
    | .point state demand => [state.code, demand.code]
    | .line state => [state.code]
    | .station heard => timeField heard
    | .step scenario missing => byteOf scenario.val :: four missing.toNat
    | .lost .attempts => [0]
    | .lost .overflow => [1])

/-- A first record with its valid flag (R179, R186). -/
def firstRecordBytes (r : Option FirstRecord) : List Byte :=
  match r with
  | none => 0 :: blank 15
  | some x =>
    [1, byteOf x.kind.code, x.subject] ++ timeField (some x.onset)
    ++ [x.mode.code, hiByte x.epoch, loByte x.epoch, x.phase.code.setWidth 8, byteOf x.scenario.val, byteOf x.step.val]
    ++ x.detail.bytes

/-- The rest of the FLU's state, 0x0B00 (R186). The levels of the TROUBLE and CRITICAL lines are values in the order in which R181
lists them, active before inactive, where R193 can also be read as making them flags (log 15); the next serial takes two
bytes, as a trace entry's serial does, where R193 names no width for it (log 54): the model's choices. -/
def State.recordArea (s : State) : List Byte :=
  let f := s.flu
  [byteOf f.active.length] ++ firstRecordBytes f.firstCritical ++ firstRecordBytes f.firstTrouble
  ++ three f.nextCritical.toNat ++ three f.nextTrouble.toNat ++ three f.noteSeen.toNat
  ++ [flag f.latch, flag f.tableFull, firstOf f.troubleLine, firstOf f.criticalLine, byteOf f.writePos.val,
      hiByte f.nextSerial, loByte f.nextSerial, byteOf s.mnp.page.val]

/-- A trace entry in eight bytes, 255 where never written (R186, section 11.4). -/
def traceBytes (e : Option TraceEntry) : List Byte :=
  match e with
  | none => blank 8
  | some x =>
    [hiByte x.serial, loByte x.serial] ++ timeField (some x.time) ++ [x.kind.code, x.subject, x.value1, x.value2]

/-- The trace page selected: positions 8p to 8p + 7 (R186). -/
def State.pageArea (s : State) : List Byte :=
  tableField 8 fun i =>
    match index 128 (8 * s.mnp.page.val + i.val) with
    | some j => traceBytes s.flu.trace[j]
    | none => blank 8

/-! ## The map -/

/-- The areas of the window map, in the order of the map (section 11.4). -/
inductive Area where
  | identity
  | command
  | scenarioRecord
  | steps
  | zones
  | reportTimes
  | lines
  | presence
  | overrides
  | demands
  | mode
  | points
  | measurement
  | queues
  | faults
  | records
  | tracePage
deriving DecidableEq, Repr

/-- The base address of an area (section 11.4). -/
def Area.base (a : Area) : Nat :=
  match a with
  | .identity => 0x0000
  | .command => 0x0010
  | .scenarioRecord => 0x0020
  | .steps => 0x0060
  | .zones => 0x0100
  | .reportTimes => 0x0200
  | .lines => 0x0280
  | .presence => 0x0300
  | .overrides => 0x0500
  | .demands => 0x0580
  | .mode => 0x05C0
  | .points => 0x0600
  | .measurement => 0x0800
  | .queues => 0x0900
  | .faults => 0x0A00
  | .records => 0x0B00
  | .tracePage => 0x0B80

/-- The size of an area in bytes (section 11.4). -/
def Area.size (a : Area) : Nat :=
  match a with
  | .identity => 16
  | .command => 4
  | .scenarioRecord => 64
  | .steps => 160
  | .zones => 256
  | .reportTimes => 128
  | .lines => 128
  | .presence => 512
  | .overrides => 128
  | .demands => 64
  | .mode => 16
  | .points => 512
  | .measurement => 256
  | .queues => 128
  | .faults => 256
  | .records => 128
  | .tracePage => 64

/-- The bytes an area presents, up to its last field (section 11.4). -/
def State.areaBytes (s : State) (a : Area) : List Byte :=
  match a with
  | .identity => s.identityArea
  | .command => s.commandArea
  | .scenarioRecord => s.scenarioArea
  | .steps => s.stepArea
  | .zones => s.zoneArea
  | .reportTimes => s.reportTimeArea
  | .lines => s.lineArea
  | .presence => s.presenceArea
  | .overrides => s.overrideArea
  | .demands => s.demandArea
  | .mode => s.modeArea
  | .points => s.pointArea
  | .measurement => s.pmuArea
  | .queues => s.queueArea
  | .faults => s.faultArea
  | .records => s.recordArea
  | .tracePage => s.pageArea

/-- Every area of the map. -/
def areas : List Area :=
  [.identity, .command, .scenarioRecord, .steps, .zones, .reportTimes, .lines, .presence, .overrides,
    .demands, .mode, .points, .measurement, .queues, .faults, .records, .tracePage]

/-- The area an address lies in, if any. -/
def areaOf (address : Nat) : Option Area :=
  areas.find? fun a => decide (a.base ≤ address) && decide (address < a.base + a.size)

/-- The byte the window presents at an address: 255 outside the areas and after the last field of an area (R193). -/
def State.windowByte (s : State) (address : Nat) : Byte :=
  match areaOf address with
  | some a => (s.areaBytes a).getD (address - a.base) 255
  | none => 255

end Sys2Proof.Machine
end

