-- ==== Sys2Proof/Machine/Port.lean ====
section
/-! DEFINITION. The Maintenance Port: the commands handed to their owners with their outcomes (R26, R27, R30, R31, R174, R183,
R194), and the read and write transfers (R193). -/

namespace Sys2Proof.Machine

/-- The outcome of a maintenance command (section 11.5). -/
inductive CommandOutcome where
  | accepted
  | refusedMode
  | refusedPhase
  | refusedArgument
  | refusedState
  | unknown
deriving DecidableEq, Repr

/-- The code of an outcome (section 11.5). -/
def CommandOutcome.code (o : CommandOutcome) : Byte :=
  match o with
  | .accepted => 1
  | .refusedMode => 2
  | .refusedPhase => 3
  | .refusedArgument => 4
  | .refusedState => 5
  | .unknown => 6

/-! ## The commands at their owners -/

/-- The FLU takes CLEAR-LOG (R183). -/
def Flu.clearLog (f : Flu) : Flu :=
  ({ f with
    firstCritical := none, firstTrouble := none, nextCritical := 0, nextTrouble := 0, noteSeen := 0, latch := false
    tableFull := false } : Flu).drive

/-- CLEAR-LOG at its owner (R183). -/
def State.clearLog (s : State) : State × CommandOutcome :=
  (s.withFlu s.flu.clearLog, .accepted)

/-- LINK-RESTART at its owner (R174, R194). -/
def State.restartLink (s : State) : State × CommandOutcome :=
  if s.isActive then (s.linkRestart, .accepted) else (s, .refusedMode)

/-- The lines a set names. -/
def linesIn (set : LineSet) : List LineId :=
  (List.finRange 8).filter fun l => has set l.val

/-- A line in a state that keeps it out of a new session (R30). -/
def LineState.busy (l : LineState) : Bool :=
  match l with
  | .active | .clearing | .chatter => true
  | _ => false

/-- The argument of TEST-ON names a set of assigned lines, not empty; bits above the eight lines name none (R30, R194;
log 30). -/
def State.testArgument (s : State) (argument : BitVec 16) : Bool :=
  decide (argument.toNat < 256) && argument != 0
    && (linesIn (loByte argument)).all fun l => (s.line l).cfg.zone.isSome

/-- The outcome of TEST-ON, in the order mode, phase, argument, state (R30, R194). -/
def State.testOnOutcome (s : State) (argument : BitVec 16) : CommandOutcome :=
  if !s.prm.mode.joined then .refusedMode
  else if s.age.view.phase != .idle then .refusedPhase
  else if !s.testArgument argument then .refusedArgument
  else if s.liu.session.isSome || (linesIn (loByte argument)).any fun l => (s.line l).state.busy then .refusedState
  else .accepted

/-- An operation that hands notices, and then the AGE taking them (log 6). -/
def State.withNotices (r : State × List Notice) : State :=
  r.1.takeNotices r.2

/-- TEST-ON at its owner (R30). -/
def State.testOn (s : State) (argument : BitVec 16) : State × CommandOutcome :=
  match s.testOnOutcome argument with
  | .accepted => (State.withNotices (s.startSession (loByte argument)), .accepted)
  | o => (s, o)

/-- TEST-OFF at its owner (R31, R194). -/
def State.testOff (s : State) : State × CommandOutcome :=
  if s.isActive then (State.withNotices s.endSession, .accepted) else (s, .refusedMode)

/-- The line an ISOLATE or RESTORE names, or the refusal (R26, R194). -/
def State.lineCommand (s : State) (argument : BitVec 16) : Except CommandOutcome LineId :=
  if !s.prm.mode.joined then .error .refusedMode
  else if s.age.view.phase != .idle then .error .refusedPhase
  else
    match index 8 argument.toNat with
    | none => .error .refusedArgument
    | some l => if (s.line l).cfg.zone.isSome then .ok l else .error .refusedArgument

/-- ISOLATE at its owner (R26). -/
def State.isolate (s : State) (argument : BitVec 16) : State × CommandOutcome :=
  match s.lineCommand argument with
  | .error o => (s, o)
  | .ok l => (State.withNotices (s.settleLine l (s.line l).isolate), .accepted)

/-- RESTORE at its owner (R27). -/
def State.restore (s : State) (argument : BitVec 16) : State × CommandOutcome :=
  match s.lineCommand argument with
  | .error o => (s, o)
  | .ok l => (State.withNotices (s.settleLine l (s.line l).restore), .accepted)

/-- TRACE-PAGE at its owner (R194). -/
def State.selectPage (s : State) (argument : BitVec 16) : State × CommandOutcome :=
  match index 16 argument.toNat with
  | some p => (s.withMnp { s.mnp with page := p }, .accepted)
  | none => (s, .refusedArgument)

/-! ## The result byte -/

/-- The high four bits of the result: the command code; free where the code does not fit four bits (R194; log 11). -/
def resultNibble (draw : Nat) (code : Byte) : BitVec 4 :=
  if code.toNat < 16 then code.setWidth 4 else Config.freeResultNibble draw code

/-- The command taken: its code reads 0, and the result holds the code and the outcome (R194). -/
def State.report (r : State × CommandOutcome) (code : Byte) : State :=
  let m := r.1.mnp
  r.1.withMnp { m with
    command := 0
    result := (resultNibble m.drawn code ++ (0 : BitVec 4)) ||| r.2.code
    drawn := m.drawn + 1 }

/-- A command with its argument handed to its owner; STATION-RESET writes no outcome (R194). -/
def State.takeCommand (s : State) (code : Byte) (argument : BitVec 16) : State :=
  match code.toNat with
  | 1 => State.report s.clearLog code
  | 2 => State.report s.restartLink code
  | 3 => s.stationReset
  | 4 => State.report (s.testOn argument) code
  | 5 => State.report s.testOff code
  | 6 => State.report (s.isolate argument) code
  | 7 => State.report (s.restore argument) code
  | 8 => State.report (s.selectPage argument) code
  | _ => State.report (s, .unknown) code

/-! ## Transfers -/

/-- The station answers at a 7-bit address: 0x40 plus its number, once the straps have been sampled (R193). -/
def State.answers (s : State) (address : BitVec 7) : Bool :=
  match s.cfl.station with
  | some n => address == 0x40 + BitVec.ofNat 7 n.val
  | none => false

/-- The pointer risen by one, stopping at 0xFFFF (R193). -/
def nextPointer (p : BitVec 16) : BitVec 16 :=
  if p == 0xFFFF then p else p + 1

/-- One byte written at the pointer: kept at the command and argument addresses, else discarded (R193). -/
def Mnp.writeByte (m : Mnp) (b : Byte) : Mnp :=
  let kept :=
    match m.pointer.toNat with
    | 0x10 => { m with command := b }
    | 0x11 => { m with argHigh := b }
    | 0x12 => { m with argLow := b }
    | _ => m
  { kept with pointer := nextPointer m.pointer }

/-- Whether bytes written from a pointer on write the command code. -/
def writesCommand : BitVec 16 → List Byte → Bool
  | _, [] => false
  | p, _ :: rest => p == 0x10 || writesCommand (nextPointer p) rest

/-- A write transfer (R193, R194). -/
def State.write (s : State) (bytes : List Byte) : State :=
  match bytes with
  | hi :: lo :: data =>
    let p := word16 hi lo
    let m := data.foldl Mnp.writeByte { s.mnp with pointer := p }
    let s' := s.withMnp m
    if writesCommand p data then s'.takeCommand m.command (word16 m.argHigh m.argLow) else s'
  | _ => s

/-- The bytes a read serves from a pointer on, all from the window as it stands (R193). -/
def State.readBytes (s : State) : Nat → BitVec 16 → List Byte
  | 0, _ => []
  | count + 1, p => s.windowByte p.toNat :: s.readBytes count (nextPointer p)

/-- The pointer after so many bytes (R193). -/
def pointerAfter : Nat → BitVec 16 → BitVec 16
  | 0, p => p
  | count + 1, p => pointerAfter count (nextPointer p)

/-- A read transfer: the bytes served and the pointer risen (R193; log 33). -/
def State.read (s : State) (count : Nat) : State :=
  s.withMnp { s.mnp with
    served := s.readBytes count s.mnp.pointer
    pointer := pointerAfter count s.mnp.pointer
    drawn := s.mnp.drawn + 1 }

end Sys2Proof.Machine
end

