-- ==== Sys2Proof/Machine/StartCommands.lean ====
section
/-! DEFINITION. The meanings of the start and time commands: POWER_ON_RESET, RESET_FALLING_EDGE, RESET_END, IMAGE_LOAD, TICK. -/

namespace Sys2Proof.Machine

/-- POWER_ON_RESET (R187). -/
def execPowerOnReset (s : State) : Host.Outcome State Fault Refusal :=
  .next s.powerOn

/-- RESET_FALLING_EDGE: a station reset (R187). -/
def execResetFallingEdge (s : State) : Host.Outcome State Fault Refusal :=
  .next s.stationReset

/-- RESET_END (R188). -/
def execResetEnd (straps : StationId) (s : State) : Host.Outcome State Fault Refusal :=
  .next (s.endReset straps)

/-- IMAGE_LOAD: the read completes, once it has begun (R189). -/
def execImageLoad (inputs : StartInputs) (s : State) : Host.Outcome State Fault Refusal :=
  .next (if s.prm.mode == .starting && s.cfl.stage == .reading then s.loadImage inputs else s)

/-- TICK; the tick is stopped in STARTING and CONFIG-FAULT (R187, R190, R192). -/
def execTick (samples : TickSamples) (s : State) : Host.Outcome State Fault Refusal :=
  .next (if s.isActive then s.tick samples else s)

end Sys2Proof.Machine
end

