-- ==== Sys2Proof/Machine/LineCommands.lean ====
section
/-! DEFINITION. The meanings of the commands at the detection and command lines (chapter 2). -/

namespace Sys2Proof.Machine

/-- READING_EVENT (R18, R20 to R26). -/
def execReadingEvent (line : LineId) (band : Band) (s : State) : Host.Outcome State Fault Refusal :=
  .next (if s.isActive then State.withNotices (s.takeBand line band) else s)

/-- LINE_TIMER_EXPIRY (R21, R23, R24). -/
def execLineTimerExpiry (line : LineId) (s : State) : Host.Outcome State Fault Refusal :=
  .next (if s.isActive && timerDue (s.line line).timer then
    State.withNotices (s.settleLine line (s.line line).timerExpiry) else s)

/-- CHATTER_WINDOW_EXPIRY (R22). -/
def execChatterWindowExpiry (line : LineId) (s : State) : Host.Outcome State Fault Refusal :=
  .next (if s.isActive && timerDue (s.line line).window then s.setLine line (s.line line).windowExpiry else s)

/-- SESSION_TIMER_EXPIRY (R31). -/
def execSessionTimerExpiry (s : State) : Host.Outcome State Fault Refusal :=
  match s.liu.session with
  | some x => .next (if s.isActive && timerDue x.timer then State.withNotices s.endSession else s)
  | none => .next s

/-- The state with a command line's record replaced. -/
def State.setCommand (s : State) (l : LineId) (r : CommandRecord) : State :=
  s.withLiu { s.liu with commands := put s.liu.commands l r }

/-- RAW_LEVEL_CHANGE (R32). -/
def execRawLevelChange (line : LineId) (level : Level) (s : State) : Host.Outcome State Fault Refusal :=
  .next (if s.isActive then s.setCommand line ((s.liu.commands[line]).takeRaw level) else s)

/-- A level change acted on by the function of its line (R34, R35). -/
def State.actOnLevel (s : State) (r : CommandRecord) : State :=
  match r.function.group with
  | some g => s.deriveGroup g
  | none => if r.isKeyEvent r.debounced && s.prm.mode.joined then s.takeKeyEvent else s

/-- LEVEL_CHANGE: the debounce timer expires (R32, R34, R35). -/
def execLevelChange (line : LineId) (s : State) : Host.Outcome State Fault Refusal :=
  let r := s.liu.commands[line]
  .next (if s.isActive && timerDue r.timer then (s.setCommand line r.settle).actOnLevel r.settle else s)

end Sys2Proof.Machine
end

