-- ==== Sys2Proof/Machine/BulletinCommands.lean ====
section
/-! DEFINITION. The meanings of the bulletins taken from the Receive FIFO (R168), each by the Presence Monitor and the block that owns its kind. -/

namespace Sys2Proof.Machine

/-- CLAIM (R48, R49, R70). -/
def execClaim (src : Source) (order : TakeOrder) (epoch : Epoch) (zone : Byte) (s : State) : Host.Outcome State Fault Refusal :=
  .next (s.takeBulletin (.claim epoch zone) src order (fun t => t.noteSender src.sender)
    (fun t => t.takeClaim epoch zone))

/-- ESCALATE (R59, R70). -/
def execEscalate (src : Source) (order : TakeOrder) (epoch : Epoch) (origin scenario : Byte) (s : State) : Host.Outcome State Fault Refusal :=
  .next (s.takeBulletin (.escalate epoch origin scenario) src order (fun t => t.noteSender src.sender)
    (fun t => t.takeEscalate src.sender epoch origin scenario))

/-- STAND_DOWN (R61, R70). -/
def execStandDown (src : Source) (order : TakeOrder) (epoch : Epoch) (s : State) : Host.Outcome State Fault Refusal :=
  .next (s.takeBulletin (.standDown epoch) src order (fun t => t.noteSender src.sender)
    (fun t => t.takeStandDown src.sender epoch))

/-- ZONE_REPORT (R5, R6, R70). -/
def execZoneReport (src : Source) (order : TakeOrder) (zone condition : Byte) (s : State) : Host.Outcome State Fault Refusal :=
  .next (s.takeBulletin (.zoneReport zone condition) src order (fun t => t.noteSender src.sender)
    (fun t => t.takeZoneReport src.sender zone condition))

/-- OVERRIDE (R154, R155, R70). -/
def execOverride (src : Source) (order : TakeOrder) (group mode : Byte) (s : State) : Host.Outcome State Fault Refusal :=
  .next (s.takeBulletin (.override group mode) src order (fun t => t.noteSender src.sender)
    (fun t => (t.takeOverride src group mode, [])))

/-- VIEW (R43, R44, R56, R71). -/
def execView (src : Source) (order : TakeOrder) (epoch : Epoch) (flags origin scenario step : Byte)
    (digest : BitVec 16) (s : State) : Host.Outcome State Fault Refusal :=
  .next (s.takeBulletin (.view epoch flags origin scenario step digest) src order
    (fun t => t.noteView src.sender epoch flags origin scenario step digest)
    (fun t => t.takeHeardView src.sender epoch flags origin scenario step digest))

/-- STEP_DONE (R102, R70). -/
def execStepDone (src : Source) (order : TakeOrder) (epoch : Epoch) (scenario step outcome : Byte) (s : State) : Host.Outcome State Fault Refusal :=
  .next (s.takeBulletin (.stepDone epoch scenario step outcome) src order (fun t => t.noteSender src.sender)
    (fun t => (t.takeStepDone src.sender epoch scenario step outcome, [])))

/-- SYNC_REQUEST (R84). -/
def execSyncRequest (src : Source) (s : State) : Host.Outcome State Fault Refusal :=
  match s.takeFront .syncRequest src with
  | some s' => .next (s'.takeSync src.sender)
  | none => .next s

/-- FAULT_NOTICE, for presence alone (R70, R182). -/
def execFaultNotice (src : Source) (kind subject edge : Byte) (s : State) : Host.Outcome State Fault Refusal :=
  match s.takeFront (.faultNotice kind subject edge) src with
  | some s' => .next (s'.noteSender src.sender)
  | none => .next s

end Sys2Proof.Machine
end

