-- ==== Sys2Proof/Machine/TimerCommands.lean ====
section
/-! DEFINITION. The meanings of the expiries of the agreement, presence and step timers. -/

namespace Sys2Proof.Machine

/-- CLAIM_WINDOW_EXPIRY (R50). -/
def execClaimWindowExpiry (s : State) : Host.Outcome State Fault Refusal :=
  .next (if s.isActive && timerDue s.age.window then s.commitOrigin else s)

/-- AGE_TIMER_EXPIRY (R72). -/
def execAgeTimerExpiry (station : StationId) (s : State) : Host.Outcome State Fault Refusal :=
  .next (if s.isActive && timerDue (s.presence station).age then s.ageExpiry station else s)

/-- JOIN_WAIT_EXPIRY (R78). -/
def execJoinWaitExpiry (s : State) : Host.Outcome State Fault Refusal :=
  .next (if s.prm.mode.joining && timerDue s.prm.joinWait then s.endJoinWait else s)

/-- VIEW_PERIOD_EXPIRY (R83). -/
def execViewPeriodExpiry (s : State) : Host.Outcome State Fault Refusal :=
  .next (if s.isActive && timerDue s.prm.viewPeriod then s.viewPeriod else s)

/-- SOLO_TIMER_EXPIRY (R79). -/
def execSoloTimerExpiry (s : State) : Host.Outcome State Fault Refusal :=
  .next (if s.isActive && timerDue s.prm.solo then s.soloExpiry else s)

/-- The step timer expires: kept as a pending expiry during the joining hold, else acted on (R105, R107). -/
def State.stepExpiry (s : State) : State :=
  if s.sts.viewSettled then s.forceStep
  else s.withSts { s.sts with stepTimer := none, pendingExpiry := true }

/-- STEP_TIMER_EXPIRY (R105, R107). -/
def execStepTimerExpiry (s : State) : Host.Outcome State Fault Refusal :=
  .next (if s.isActive && timerDue s.sts.stepTimer then s.stepExpiry else s)

/-- The current step is not complete (R95). -/
def State.stepOpen (s : State) : Bool :=
  s.sts.step != 0 && (s.row s.sts.step).completion == .opened

/-- The repeat timer expires: STEP-DONE again for a current step that is not complete (R101); during the joining hold none is
queued and the timer goes on (R107; log 39). -/
def State.repeatExpiry (s : State) : State :=
  if s.stepOpen then
    let s' := s.withSts { s.sts with repeatTimer := repeatTime }
    if s.sts.viewSettled then s'.queue s.stepDoneBulletin else s'
  else s.withSts { s.sts with repeatTimer := none }

/-- REPEAT_TIMER_EXPIRY (R101, R107). -/
def execRepeatTimerExpiry (s : State) : Host.Outcome State Fault Refusal :=
  .next (if s.isActive && timerDue s.sts.repeatTimer then s.repeatExpiry else s)

end Sys2Proof.Machine
end

