-- ==== Sys2Proof/Machine/PointCommands.lean ====
section
/-! DEFINITION. The meanings of the events of damper and fan points and of the flow-proof measurement (chapters 6 and 7). -/

namespace Sys2Proof.Machine

/-- The settle interval of a limit input (R111). -/
def Damper.settleOf (d : Damper) (i : LimitInput) : Timer :=
  match i with
  | .inputA => d.settleA
  | .inputB => d.settleB

/-- LIMIT_EVENT: the filtered level takes the level held through the settle interval (R111, R115 to R119). -/
def execLimitEvent (point : PointId) (input : LimitInput) (s : State) : Host.Outcome State Fault Refusal :=
  match s.point point with
  | .damper d =>
    .next (if s.isActive && timerDue (d.settleOf input) then
      (s.settleDamper point d (d.takeLimit input (otherLevel (d.limit input)))).takeReports else s)
  | _ => .next s

/-- TRAVEL_TIMER_EXPIRY (R116). -/
def execTravelTimerExpiry (point : PointId) (s : State) : Host.Outcome State Fault Refusal :=
  match s.point point with
  | .damper d =>
    .next (if s.isActive && timerDue d.travel then (s.settleDamper point d d.travelExpiry).takeReports else s)
  | _ => .next s

/-- The fan with its filtered input B at the other level and the settle interval stopped (R126). -/
def Fan.flipInput (f : Fan) : Fan :=
  { f with inputB := otherLevel f.inputB, settleB := none }

/-- A fan's event that is due, after which the STS takes its reports (R93, R100, R146; log 7). -/
def State.fanEvent (s : State) (p : PointId) (due : Fan → Bool) (change : Fan → FanChange) : State :=
  match s.point p with
  | .fan f => if s.isActive && due f then (s.settleFan p f (change f)).takeReports else s
  | _ => s

/-- TRIP_EVENT (R126, R135). -/
def execTripEvent (point : PointId) (s : State) : Host.Outcome State Fault Refusal :=
  .next (s.fanEvent point
    (fun f => timerDue f.settleB && tripActive f.tripWhenMade f.flipInput.inputB) (fun f => f.flipInput.trip))

/-- TRIP_CLEAR (R126, R135). -/
def execTripClear (point : PointId) (s : State) : Host.Outcome State Fault Refusal :=
  .next (s.fanEvent point
    (fun f => timerDue f.settleB && !tripActive f.tripWhenMade f.flipInput.inputB) (fun f => f.flipInput.tripClear))

/-- PROVE_TIMER_EXPIRY (R131, R132). -/
def execProveTimerExpiry (point : PointId) (s : State) : Host.Outcome State Fault Refusal :=
  .next (s.fanEvent point (fun f => f.state == .starting && timerDue f.prove) Fan.proveExpiry)

/-- FLOW_LOSS_TIMER_EXPIRY (R132, R134). -/
def execFlowLossTimerExpiry (point : PointId) (s : State) : Host.Outcome State Fault Refusal :=
  .next (s.fanEvent point (fun f => f.state == .running && timerDue f.flow) Fan.flowExpiry)

/-- RUN_DOWN_EXPIRY (R132, R133). -/
def execRunDownExpiry (point : PointId) (s : State) : Host.Outcome State Fault Refusal :=
  .next (s.fanEvent point (fun f => timerDue f.run) (fun f => f.runDownExpiry (s.measure point).proven))

/-- UNCOMMANDED_TIMER_EXPIRY (R136). -/
def execUncommandedTimerExpiry (point : PointId) (s : State) : Host.Outcome State Fault Refusal :=
  .next (s.fanEvent point (fun f => f.state == .stopped && timerDue f.uncommandedTimer) Fan.uncommandedExpiry)

/-- START_GAP_EXPIRY (R139). -/
def execStartGapExpiry (s : State) : Host.Outcome State Fault Refusal :=
  .next (if s.isActive && timerDue s.ptc.gap then
    ((s.withPtc { s.ptc with gap := none }).grantTest).takeReports else s)

/-- PULSE_EDGE (R143). -/
def execPulseEdge (point : PointId) (level : Level) (offset : Fin 10) (s : State) (held : Nat := 1000) :
    Host.Outcome State Fault Refusal :=
  .next (if s.isActive && (s.point point).isFan then (s.pulse point level offset.val held).takeReports else s)

/-- The no-edge timer runs out before the next tick (R144; log 10). -/
def noEdgeDue (t : Timer) : Bool :=
  match t with
  | some left => decide (left < 10)
  | none => false

/-- NO_EDGE_TIMER_EXPIRY (R144). -/
def execNoEdgeTimerExpiry (point : PointId) (s : State) : Host.Outcome State Fault Refusal :=
  .next (if s.isActive && (s.point point).isFan && noEdgeDue (s.measure point).noEdge then
    (s.noEdgeExpiry point).takeReports else s)

end Sys2Proof.Machine
end

