-- ==== Sys2Proof/Machine/BusCommands.lean ====
section
/-! DEFINITION. The meanings of the events of the bus line (chapter 9). -/

namespace Sys2Proof.Machine

/-- TRANSMIT_ATTEMPT (R159, R166; log 50). -/
def execTransmitAttempt (s : State) (quietBits : Nat := idleBits) : Host.Outcome State Fault Refusal :=
  .next (if s.isActive then s.withBsc (s.bsc.tryBegin quietBits) else s)

/-- CONTENTION_YIELD at a bit where this station sent recessive (R161). -/
def execContentionYield (bit : Fin 7) (s : State) : Host.Outcome State Fault Refusal :=
  match s.bsc.attempt with
  | some a => .next (if s.isActive && contentionBit a.sent s.number bit then
      s.withBsc (s.bsc.yieldAt a.sent s.number bit) else s)
  | none => .next s

/-- BIT_ERROR (R162). -/
def execBitError (s : State) (startBit : Bool := false) : Host.Outcome State Fault Refusal :=
  match s.bsc.attempt with
  | some a => .next (if s.isActive then s.bitErrorNow a startBit else s)
  | none => .next s

/-- TRANSMIT_COMPLETE (R167). -/
def execTransmitComplete (s : State) : Host.Outcome State Fault Refusal :=
  match s.bsc.attempt with
  | some a => .next (if s.isActive then s.completeNow a else s)
  | none => .next s

/-- FRAME_COMPLETE: a frame that passes the checks of R160 (R168, R171). -/
def execFrameComplete (frame : Frame) (s : State) : Host.Outcome State Fault Refusal :=
  match receiveFrame frame with
  | some b => .next (if s.isActive then s.receive frame b else s)
  | none => .next s

/-- FRAME_ERROR: a frame that fails a check of R160 (R169). -/
def execFrameError (frame : Frame) (s : State) (brokenOff : Bool := false) : Host.Outcome State Fault Refusal :=
  match receiveFrame frame with
  | some _ => .next s
  | none => .next (if s.isActive then s.discard frame brokenOff else s)

/-- SYNC_HOLDOFF_EXPIRY (R170). -/
def execSyncHoldoffExpiry (s : State) : Host.Outcome State Fault Refusal :=
  .next (if s.isActive && timerDue s.bsc.holdoff then s.holdoffExpiry else s)

/-- DUPLICATE_TIMER_EXPIRY (R171). -/
def execDuplicateTimerExpiry (s : State) : Host.Outcome State Fault Refusal :=
  .next (if s.isActive && timerDue s.bsc.duplicate then s.duplicateExpiry else s)

/-- DOMINANT_TIMER_EXPIRY (R172; log 9). -/
def execDominantTimerExpiry (s : State) (heldBits : Nat := dominantBits) : Host.Outcome State Fault Refusal :=
  .next (if s.isActive then (s.monitorLine .dominant heldBits).dominantExpiry else s)

/-- RECOVERY_TIMER_EXPIRY (R173; log 9). -/
def execRecoveryTimerExpiry (s : State) (heldBits : Nat := recoveryBits) : Host.Outcome State Fault Refusal :=
  .next (if s.isActive then (s.monitorLine .recessive heldBits).recoveryExpiry else s)

end Sys2Proof.Machine
end

