-- ==== Sys2Proof/Machine/PortCommands.lean ====
section
/-! DEFINITION. The meanings of the maintenance commands as the Maintenance Port hands them over, and of its transfers (R193, R194; log 30). -/

namespace Sys2Proof.Machine

/-- LINK_RESTART (R174). -/
def execLinkRestart (s : State) : Host.Outcome State Fault Refusal :=
  .next (State.report s.restartLink 2)

/-- CLEAR_LOG (R183). -/
def execClearLog (s : State) : Host.Outcome State Fault Refusal :=
  .next (State.report s.clearLog 1)

/-- STATION_RESET; it writes no outcome (R187, R194). -/
def execStationReset (s : State) : Host.Outcome State Fault Refusal :=
  .next s.stationReset

/-- TEST_ON (R30). -/
def execTestOn (argument : BitVec 16) (s : State) : Host.Outcome State Fault Refusal :=
  .next (State.report (s.testOn argument) 4)

/-- TEST_OFF (R31). -/
def execTestOff (s : State) : Host.Outcome State Fault Refusal :=
  .next (State.report s.testOff 5)

/-- ISOLATE (R26). -/
def execIsolate (argument : BitVec 16) (s : State) : Host.Outcome State Fault Refusal :=
  .next (State.report (s.isolate argument) 6)

/-- RESTORE (R27). -/
def execRestore (argument : BitVec 16) (s : State) : Host.Outcome State Fault Refusal :=
  .next (State.report (s.restore argument) 7)

/-- TRACE_PAGE (R194). -/
def execTracePage (argument : BitVec 16) (s : State) : Host.Outcome State Fault Refusal :=
  .next (State.report (s.selectPage argument) 8)

/-- A code that names no command: 0 or above 8 (R194). -/
def unknownCode (code : Byte) : Bool :=
  code == 0 || decide (8 < code.toNat)

/-- UNKNOWN_COMMAND (R194). -/
def execUnknownCommand (code : Byte) (s : State) : Host.Outcome State Fault Refusal :=
  .next (if unknownCode code then State.report (s, .unknown) code else s)

/-- WRITE_TRANSFER (R193). -/
def execWriteTransfer (address : BitVec 7) (bytes : List Byte) (s : State) : Host.Outcome State Fault Refusal :=
  .next (if s.answers address then s.write bytes else s)

/-- READ_TRANSFER (R193). -/
def execReadTransfer (address : BitVec 7) (count : Nat) (s : State) : Host.Outcome State Fault Refusal :=
  .next (if s.answers address then s.read count else s)

end Sys2Proof.Machine
end

