-- ==== Sys2Proof/Machine/Dispatch.lean ====
section
/-! DEFINITION. The commands and their meanings, one arm for each constructor of Instr. -/

namespace Sys2Proof.Machine

/-- The effect of a command on everything but the queue of commands. -/
def exec (i : Instr) (s : State) : Host.Outcome State Fault Refusal :=
  match i with
  | .powerOnReset => Sys2Proof.Machine.execPowerOnReset s
  | .resetFallingEdge => Sys2Proof.Machine.execResetFallingEdge s
  | .resetEnd straps => Sys2Proof.Machine.execResetEnd straps s
  | .imageLoad inputs => Sys2Proof.Machine.execImageLoad inputs s
  | .tick samples => Sys2Proof.Machine.execTick samples s
  | .readingEvent line band => Sys2Proof.Machine.execReadingEvent line band s
  | .lineTimerExpiry line => Sys2Proof.Machine.execLineTimerExpiry line s
  | .chatterWindowExpiry line => Sys2Proof.Machine.execChatterWindowExpiry line s
  | .sessionTimerExpiry => Sys2Proof.Machine.execSessionTimerExpiry s
  | .rawLevelChange line level => Sys2Proof.Machine.execRawLevelChange line level s
  | .levelChange line => Sys2Proof.Machine.execLevelChange line s
  | .claim src order epoch zone => Sys2Proof.Machine.execClaim src order epoch zone s
  | .escalate src order epoch origin scenario => Sys2Proof.Machine.execEscalate src order epoch origin scenario s
  | .standDown src order epoch => Sys2Proof.Machine.execStandDown src order epoch s
  | .zoneReport src order zone condition => Sys2Proof.Machine.execZoneReport src order zone condition s
  | .override src order group mode => Sys2Proof.Machine.execOverride src order group mode s
  | .view src order epoch flags origin scenario step digest => Sys2Proof.Machine.execView src order epoch flags origin scenario step digest s
  | .stepDone src order epoch scenario step outcome => Sys2Proof.Machine.execStepDone src order epoch scenario step outcome s
  | .syncRequest src => Sys2Proof.Machine.execSyncRequest src s
  | .faultNotice src kind subject edge => Sys2Proof.Machine.execFaultNotice src kind subject edge s
  | .claimWindowExpiry => Sys2Proof.Machine.execClaimWindowExpiry s
  | .ageTimerExpiry station => Sys2Proof.Machine.execAgeTimerExpiry station s
  | .joinWaitExpiry => Sys2Proof.Machine.execJoinWaitExpiry s
  | .viewPeriodExpiry => Sys2Proof.Machine.execViewPeriodExpiry s
  | .soloTimerExpiry => Sys2Proof.Machine.execSoloTimerExpiry s
  | .stepTimerExpiry => Sys2Proof.Machine.execStepTimerExpiry s
  | .repeatTimerExpiry => Sys2Proof.Machine.execRepeatTimerExpiry s
  | .limitEvent point input => Sys2Proof.Machine.execLimitEvent point input s
  | .travelTimerExpiry point => Sys2Proof.Machine.execTravelTimerExpiry point s
  | .tripEvent point => Sys2Proof.Machine.execTripEvent point s
  | .tripClear point => Sys2Proof.Machine.execTripClear point s
  | .proveTimerExpiry point => Sys2Proof.Machine.execProveTimerExpiry point s
  | .flowLossTimerExpiry point => Sys2Proof.Machine.execFlowLossTimerExpiry point s
  | .runDownExpiry point => Sys2Proof.Machine.execRunDownExpiry point s
  | .uncommandedTimerExpiry point => Sys2Proof.Machine.execUncommandedTimerExpiry point s
  | .startGapExpiry => Sys2Proof.Machine.execStartGapExpiry s
  | .pulseEdge point level offset held => Sys2Proof.Machine.execPulseEdge point level offset s held
  | .noEdgeTimerExpiry point => Sys2Proof.Machine.execNoEdgeTimerExpiry point s
  | .transmitAttempt quietBits => Sys2Proof.Machine.execTransmitAttempt s quietBits
  | .contentionYield bit => Sys2Proof.Machine.execContentionYield bit s
  | .bitError startBit => Sys2Proof.Machine.execBitError s startBit
  | .transmitComplete => Sys2Proof.Machine.execTransmitComplete s
  | .frameComplete frame => Sys2Proof.Machine.execFrameComplete frame s
  | .frameError frame brokenOff => Sys2Proof.Machine.execFrameError frame s brokenOff
  | .syncHoldoffExpiry => Sys2Proof.Machine.execSyncHoldoffExpiry s
  | .duplicateTimerExpiry => Sys2Proof.Machine.execDuplicateTimerExpiry s
  | .dominantTimerExpiry heldBits => Sys2Proof.Machine.execDominantTimerExpiry s heldBits
  | .recoveryTimerExpiry heldBits => Sys2Proof.Machine.execRecoveryTimerExpiry s heldBits
  | .linkRestart => Sys2Proof.Machine.execLinkRestart s
  | .clearLog => Sys2Proof.Machine.execClearLog s
  | .stationReset => Sys2Proof.Machine.execStationReset s
  | .testOn argument => Sys2Proof.Machine.execTestOn argument s
  | .testOff => Sys2Proof.Machine.execTestOff s
  | .isolate argument => Sys2Proof.Machine.execIsolate argument s
  | .restore argument => Sys2Proof.Machine.execRestore argument s
  | .tracePage argument => Sys2Proof.Machine.execTracePage argument s
  | .unknownCommand code => Sys2Proof.Machine.execUnknownCommand code s
  | .writeTransfer address bytes => Sys2Proof.Machine.execWriteTransfer address bytes s
  | .readTransfer address count => Sys2Proof.Machine.execReadTransfer address count s

end Sys2Proof.Machine
end

