-- ==== Sys2Proof/Safety.lean ====
section
/-! DEFINITION. What it means that the station is in order, block by block, and what an event leaves unchanged: the terms the
statements are made in. -/

namespace Sys2Proof.Machine

/-! ## Invariants -/

/-- The Bus Controller is in order: the Transmit Queue holds at most 8 bulletins, at most one of them a VIEW, in the order of
their classes, each with an attempt count of at most 3; one entry is in an attempt exactly while the transmitter makes one;
the Receive FIFO holds at most 8; and no attempt is made while LINK-STUCK is active (R163, R162, R166, R168, R172). -/
def BusInOrder (s : State) : Prop :=
  s.bsc.queue.length ≤ 8
    ∧ (s.bsc.queue.filter fun e => e.bulletin.isView).length ≤ 1
    ∧ s.bsc.queue.Pairwise (fun a b => a.bulletin.cls ≤ b.bulletin.cls)
    ∧ (∀ e ∈ s.bsc.queue, e.attempts ≤ 3)
    ∧ (s.bsc.queue.filter fun e => e.inAttempt).length = (if s.bsc.attempt.isSome then 1 else 0)
    ∧ s.bsc.fifo.length ≤ 8
    ∧ (s.bsc.linkStuck = true → s.bsc.attempt = none)

/-- The Fault Unit is in order: the Active Fault Table holds at most 32 entries, no two of one kind and subject and none of
a MASKED severity; the output lines show the table and the latch; a full table has set the latch; and a next-fault set
is empty while its first record is not valid (R177 to R181). -/
def FaultsInOrder (s : State) : Prop :=
  s.flu.active.length ≤ 32
    ∧ s.flu.active.Pairwise (fun a b => ¬(a.kind = b.kind ∧ a.subject = b.subject))
    ∧ (∀ e ∈ s.flu.active, e.severity ≠ .masked)
    ∧ s.flu.troubleLine = (s.flu.latch || s.flu.active.any fun e => e.severity == .trouble || e.severity == .critical)
    ∧ s.flu.criticalLine = (s.flu.active.any fun e => e.severity == .critical)
    ∧ (s.flu.tableFull = true → s.flu.latch = true)
    ∧ (s.flu.firstCritical = none → s.flu.nextCritical = 0)
    ∧ (s.flu.firstTrouble = none → s.flu.nextTrouble = 0)

/-- A point is a damper in OPEN. -/
def isOpenDamper (r : PointRecord) : Bool :=
  match r with
  | .damper d => d.state == .isOpen
  | _ => false

/-- The points are in order: every damper's drive follows its demand and every fan's drive its state (R112, R127); a fan
drives only while every damper of its interlock set stands OPEN, and its unmet set holds the others (R138, R141); the Start
Queue holds the QUEUED fans, each once (R137); at most one fan is STARTING (R139); and outside JOINING, ON-LINE and ISLAND
the queue is empty. -/
def PointsInOrder (s : State) : Prop :=
  (∀ (p : PointId) (d : Damper), s.point p = .damper d → d.drive = damperDrive d.energiseToShut d.demand)
    ∧ (∀ (p : PointId) (f : Fan), s.point p = .fan f →
        f.drive = fanDrive f.state
          ∧ (∀ q : PointId, has f.unmet q.val = (has f.interlock q.val && !isOpenDamper (s.point q)))
          ∧ (f.drive = true → f.unmet = 0))
    ∧ s.ptc.startQueue.Nodup
    ∧ (∀ p : PointId, p ∈ s.ptc.startQueue ↔ ∃ f, s.point p = .fan f ∧ f.state = .queued)
    ∧ (∀ (p q : PointId) (f g : Fan), s.point p = .fan f → s.point q = .fan g → f.state = .starting →
        g.state = .starting → p = q)
    ∧ (s.isActive = false → s.ptc.startQueue = [])

/-- The reports are in order: between commands none waits, and the last report of every point shows the point as it stands
(R99, R120, R146). -/
def ReportsInOrder (s : State) : Prop :=
  s.sts.waiting = [] ∧ ∀ p : PointId, s.sts.reports[p] = (s.point p).report

/-- The configured parts that the Agreement Engine reads lie in their ranges: a scenario program has a step, the scenario of an
in-use zone is not PRE, and a home zone is in use (R1, R2, R87). -/
def SetupInRange (s : State) : Prop :=
  (∀ c : ScenarioId, 1 ≤ (s.sts.programs[c]).stepCount)
    ∧ (∀ z : ZoneId, (s.zone z).cfg.all (fun x => x.scenario != 0) = true)
    ∧ ∀ z : ZoneId, (s.zone z).copy = .home → s.inUse z = true

/-- The Scenario Record is in order: each list holds at most 8 zones, none twice, and no zone stands on both; the origin is not on
the subsequent-zone list; each phase fixes the fields of the view as R37 says, with the leading candidate the highest-ranked of
the candidates while the claim window runs; candidates and window stand only in GATHERING; and a station that is not started
is IDLE (R37 to R39). -/
def AgreementInOrder (s : State) : Prop :=
  SetupInRange s
    ∧ s.age.candidates.length ≤ 8 ∧ s.age.candidates.Nodup
    ∧ s.age.subsequent.length ≤ 8 ∧ s.age.subsequent.Nodup
    ∧ (∀ z ∈ s.age.candidates, z ∉ s.age.subsequent ∧ s.inUse z = true)
    ∧ (∀ z, s.age.view.origin = some z → z ∉ s.age.subsequent)
    ∧ (s.age.view.phase = .idle →
        s.age.view = { epoch := s.age.view.epoch, phase := .idle, escalated := false, origin := none, scenario := 0,
                       step := 0, established := false } ∧ s.age.subsequent = [])
    ∧ (s.age.view.phase ≠ .gathering → s.age.candidates = [] ∧ s.age.window = none)
    ∧ (s.age.view.phase = .gathering → s.age.window.isSome = true ∧ ∃ z ∈ s.age.candidates,
        s.age.view = gatheringView s.age.view.epoch z ∧ ∀ y ∈ s.age.candidates, s.rank y ≤ s.rank z)
    ∧ (s.age.view.phase = .running → s.age.view.origin.isSome = true ∧ s.age.view.scenario ≠ 0
        ∧ 1 ≤ s.age.view.step.val ∧ s.age.view.step.val ≤ (s.sts.programs[s.age.view.scenario]).stepCount)
    ∧ (s.isActive = false → s.age.view.phase = .idle)

/-- The zones are in order: from acceptance on, the entry of every home zone holds the condition that its lines give, and that is
the condition last handed (R28, R29). -/
def ZonesInOrder (s : State) : Prop :=
  s.isActive = true → ∀ z : ZoneId, s.isHome z = true →
    (s.zone z).condition = s.deriveCondition z ∧ s.liu.lastCondition[z] = s.deriveCondition z

/-- Outside JOINING, ON-LINE and ISLAND the bus queues are empty (R175). In STARTING the Active Fault Table is empty, no onset is
on the way (R178), and every block but the FLU, the CFL and the MNP holds its reset values (R187). -/
def InactiveIsBare (s : State) : Prop :=
  (s.isActive = false → s.bsc.queue = [] ∧ s.bsc.fifo = [] ∧ s.bsc.attempt = none)
    ∧ (s.prm.mode = .starting → s.flu.active = [] ∧ s.flu.late = [] ∧ s.flu.waiting = [] ∧ s.liu = State.reset.liu ∧ s.ztu = State.reset.ztu
        ∧ s.age = State.reset.age ∧ s.prm = State.reset.prm ∧ s.sts = State.reset.sts ∧ s.ptc = State.reset.ptc
        ∧ s.pmu = State.reset.pmu ∧ s.ovu = State.reset.ovu ∧ s.bsc = State.reset.bsc)

/-! ## What an event leaves unchanged -/

/-- Two point records of one type with the same configured fields; that of an UNUSED point is the same whole (R110, R125). -/
def SameSetup (a b : PointRecord) : Prop :=
  match a, b with
  | .unused u, .unused v => u = v
  | .damper d, .damper e => d.energiseToShut = e.energiseToShut ∧ d.travelLimit = e.travelLimit
  | .fan f, .fan g =>
    f.interlock = g.interlock ∧ f.proveTime = g.proveTime ∧ f.runDown = g.runDown ∧ f.flowLoss = g.flowLoss
      ∧ f.restarts = g.restarts ∧ f.tripWhenMade = g.tripWhenMade
  | _, _ => False

/-- What no event outside the start of the station changes: the configuration and timebase (but for the time of the latest edge
within the tick, log 10), the queue of commands, the configured parts of every table. -/
structure KeepsSetup (s t : State) : Prop where
  cfl : t.cfl = { s.cfl with millis := t.cfl.millis }
  pending : t.pending = s.pending
  configured : t.prm.configured = s.prm.configured
  programs : t.sts.programs = s.sts.programs
  points : t.sts.points = s.sts.points
  zones : ∀ z : ZoneId, (t.zone z).cfg = (s.zone z).cfg
  lines : ∀ l : LineId, (t.line l).cfg = (s.line l).cfg
  functions : ∀ l : LineId, (t.liu.commands[l]).function = (s.liu.commands[l]).function
  owners : ∀ g : GroupId, (t.group g).owner = (s.group g).owner
  severities : t.flu.severities = s.flu.severities
  startGap : t.ptc.startGap = s.ptc.startGap
  records : ∀ p : PointId, SameSetup (s.point p) (t.point p)
  measures : ∀ p : PointId, (t.measure p).count = (s.measure p).count ∧ (t.measure p).threshold = (s.measure p).threshold

/-- What an event of a point leaves unchanged: every block but the PTC, the PMU, the FLU's records and lines, the Transmit Queue,
of the STS the demand, the reports, the stand-down order and the own settlement with its repeat timer, and of the timebase the
time of the latest edge within the tick (log 10). -/
structure KeepsAllButPoints (s t : State) : Prop where
  liu : t.liu = s.liu
  ztu : t.ztu = s.ztu
  age : t.age = s.age
  prm : t.prm = s.prm
  ovu : t.ovu = s.ovu
  cfl : t.cfl = { s.cfl with millis := t.cfl.millis }
  mnp : t.mnp = s.mnp
  pending : t.pending = s.pending
  sts : t.sts = { s.sts with
    demands := t.sts.demands, standDownPending := t.sts.standDownPending, ownSettled := t.sts.ownSettled,
    repeatTimer := t.sts.repeatTimer, reports := t.sts.reports, waiting := t.sts.waiting }
  bsc : t.bsc = { s.bsc with queue := t.bsc.queue }
  severities : t.flu.severities = s.flu.severities

/-- The Scenario Record names the same view and lists, but for the step reached and the established flag (R57). -/
def SameRecord (s t : State) : Prop :=
  t.age.view.epoch = s.age.view.epoch ∧ t.age.view.phase = s.age.view.phase ∧ t.age.view.escalated = s.age.view.escalated
    ∧ t.age.view.origin = s.age.view.origin ∧ t.age.view.scenario = s.age.view.scenario ∧ t.age.void = s.age.void
    ∧ t.age.candidates = s.age.candidates ∧ t.age.subsequent = s.age.subsequent ∧ t.age.window = s.age.window

/-- The commands that are events of the points. -/
def isPointEvent (c : Instr) : Bool :=
  match c with
  | .limitEvent .. | .travelTimerExpiry .. | .tripEvent .. | .tripClear .. | .proveTimerExpiry ..
  | .flowLossTimerExpiry .. | .runDownExpiry .. | .uncommandedTimerExpiry .. | .startGapExpiry | .pulseEdge ..
  | .noEdgeTimerExpiry .. => true
  | _ => false

/-- The commands of a start and the end of a reset, which set up the configured parts. -/
def isStart (c : Instr) : Bool :=
  match c with
  | .powerOnReset | .resetFallingEdge | .resetEnd .. | .imageLoad .. | .tick .. | .stationReset | .writeTransfer .. => true
  | _ => false

/-- A bulletin stands first among those handed, at a station that takes bulletins (R168). -/
def FirstHanded (s : State) (b : Bulletin) (src : Source) (rest : List RxEntry) : Prop :=
  s.isActive = true ∧ s.bsc.handed = { bulletin := b, src := src } :: rest

/-- A bulletin of the Transmit Queue. -/
def Queued (s : State) (b : Bulletin) : Prop :=
  ∃ e ∈ s.bsc.queue, e.bulletin = b

/-- What an event reports to the FLU about one subject: the clears, in some order, and then the onsets, with this detail, handed
together (R120, R146, R177, R178); a late onset stays on the way, and what is handed behind it (log 51). The FLU and the BSC stand
as these reports leave them, but for entries of the Sequence Trace that other events of the command write. -/
def HandsFaults (s t : State) (subject : Byte) (detail : Detail) (clears onsets : List FaultKind) : Prop :=
  ∃ order : List FaultKind, order.Perm clears ∧
    let r := s.handTogether (changeReports subject detail order onsets) false
    t.bsc = r.bsc
      ∧ t.flu = { r.flu with trace := t.flu.trace, writePos := t.flu.writePos, nextSerial := t.flu.nextSerial }

/-- The onset of a condition fault, reported first in an event: named late, it is on the way, with what its block has handed behind
it; else it stands in the table, or the table is full and FAULT-TABLE-FULL says so; MASKED, it leaves nothing (R177, R178; log
51). -/
def OnsetStands (s t : State) (kind : FaultKind) (subject : Byte) (detail : Detail) : Prop :=
  (s.flu.isLate kind subject = true →
    ∃ behind, (FaultReport.onset kind subject detail false :: behind) ∈ t.flu.waiting)
  ∧ (s.flu.isLate kind subject = false → s.severity kind ≠ .masked →
      t.flu.holds kind subject = true ∨ t.flu.tableFull = true)

/-- A momentary fault, taken by the FLU: a NOTE joins the NOTE-seen set; a TROUBLE or CRITICAL one sets the latch and fills the
first record of its severity, or, where that is valid already, joins the next-fault set (R178 to R180). -/
def MomentaryRecorded (s t : State) (kind : FaultKind) (subject : Byte) (detail : Detail) : Prop :=
  let fills (r : FirstRecord) : Prop := r.kind = kind ∧ r.subject = subject ∧ r.detail = detail
  (s.severity kind = .note → has t.flu.noteSeen kind.code = true)
  ∧ (s.severity kind = .trouble → t.flu.latch = true ∧ ∃ r, t.flu.firstTrouble = some r
      ∧ (fills r ∨ has t.flu.nextTrouble kind.code = true)
      ∧ (s.flu.firstTrouble ≠ none → has t.flu.nextTrouble kind.code = true))
  ∧ (s.severity kind = .critical → t.flu.latch = true ∧ ∃ r, t.flu.firstCritical = some r
      ∧ (fills r ∨ has t.flu.nextCritical kind.code = true)
      ∧ (s.flu.firstCritical ≠ none → has t.flu.nextCritical kind.code = true))

/-- The result of a command in the maintenance port: the command byte cleared, the code and the outcome in the result
(R194). -/
def ShowsResult (s t : State) (result : Byte) : Prop :=
  t.mnp = { s.mnp with command := 0, result := result, drawn := s.mnp.drawn + 1 }

/-- The bytes the maintenance window presents from an address on (R193). -/
def State.windowBytes (s : State) (base count : Nat) : List Byte :=
  (List.range count).map fun i => s.windowByte (base + i)

/-- A station that is a peer and whose last digest does not differ from this station's (R43, R70). -/
def Matches (s : State) (n : StationId) : Prop :=
  n = s.number ∨ (s.presence n).digest = none ∨ (s.presence n).digest = s.cfl.digest

end Sys2Proof.Machine
end

