-- ==== Sys2Proof/Certificates/Slice0/Obligations.lean ====
section
/-! DEFINITION. The statements for the provers. A statement about a command says that `exec` answers a next state and what that
state holds; a log entry named in a docstring is the model's choice, not the spec's. -/

section
open Sys2Proof Sys2Proof.Machine

/-! ## The machine: queue, reset, start, tick -/

/-- One step runs the command at the front of the queue on the state with the queue's rest; on an empty queue the station
idles (log 2: the model's choice). -/
def Obligations.StepTakesFrontCommand : Prop :=
  (∀ (c : Instr) (rest : List Instr) (s : State), step (s.withPending (c :: rest)) = exec c (s.withPending rest))
    ∧ ∀ s : State, s.pending = [] → step s = .next s

/-- What the station holds after a power-on reset, block by block, where the spec gives it (R3, R19, R33, R37, R68, R75, R87,
R88, R91, R94, R95, R110, R125, R142, R150, R151, R175, R178 to R181, R184, R187, R193, R194), an UNUSED point's record with the
values of both types. The trace entry of the entry into STARTING, the port's bytes and the compare count are in the form of log
25, the levels of an UNUSED point, which the spec samples, read broken by log 13, no onset is on the way by log 51, and the
actions of a point are REST by log 23: the model's choices. -/
def Obligations.ResetLeavesStation : Prop :=
  State.reset.prm.mode = .starting ∧ State.reset.pending = []
    ∧ (∀ z : ZoneId, State.reset.zone z = { cfg := none, condition := .quiet, copy := .unheard, lastReport := none })
    ∧ State.reset.ztu.rotation = none
    ∧ (∀ l : LineId, State.reset.line l =
        { cfg := { zone := none, normallyClosed := false, confirm := 50, clear := 100, chatterLimit := 5,
                   chatterAlarm := false, isolatedAtStart := false },
          state := .normal, reading := .normal, timer := none, window := none, toggles := 0 })
    ∧ State.reset.liu.session = none
    ∧ (∀ l : LineId, State.reset.liu.commands[l] =
        { function := .unused, raw := .broken, debounced := .broken, timer := none })
    ∧ State.reset.age.view = idleView 0
    ∧ State.reset.age.void = true ∧ State.reset.age.candidates = [] ∧ State.reset.age.subsequent = []
    ∧ State.reset.age.window = none ∧ State.reset.age.escalationEpoch = none
    ∧ (∀ n : StationId, State.reset.presence n =
        { state := .unknown, age := none, lastHeard := none, summary := none, digest := none })
    ∧ State.reset.prm.configured = 0 ∧ State.reset.prm.joinWait = none ∧ State.reset.prm.viewPeriod = none
    ∧ State.reset.prm.solo = none
    ∧ (∀ c : ScenarioId, (State.reset.sts.programs[c]).stepCount = 1
        ∧ (∀ k : Fin 8, (State.reset.sts.programs[c]).steps[k] = { roster := 0, timeout := 1200 })
        ∧ (State.reset.sts.programs[c]).escalationCount = 0 ∧ (State.reset.sts.programs[c]).escalationTarget = none)
    ∧ (∀ p : PointId, (State.reset.sts.points[p]).group = none ∧ (State.reset.sts.points[p]).normal = .give .rest
        ∧ (State.reset.sts.points[p]).pre = .give .rest
        ∧ (∀ c : ScenarioId, (State.reset.sts.points[p]).scenarios[c] = { action := .give .rest, step := 0 })
        ∧ State.reset.sts.reports[p] = none)
    ∧ (∀ p : PointId, State.reset.sts.demands[p] = { demand := .rest, source := .rest }
        ∧ State.reset.sts.frozen[p] = { demand := .rest, source := .rest })
    ∧ State.reset.sts.viewSettled = false ∧ State.reset.sts.standDownPending = false ∧ State.reset.sts.step = 0
    ∧ State.reset.sts.stepTimer = none ∧ State.reset.sts.repeatTimer = none ∧ State.reset.sts.expected = 0
    ∧ State.reset.sts.ownSettled = false ∧ State.reset.sts.epoch = 0 ∧ State.reset.sts.scenario = 0
    ∧ State.reset.sts.phase = .idle ∧ State.reset.sts.established = false ∧ State.reset.sts.pendingExpiry = false
    ∧ (∀ k : Fin 8, State.reset.sts.rows[k] = { heard := 0, withFaults := 0, completion := .opened })
    ∧ (∀ p : PointId, State.reset.point p = .unused
        { energiseToShut := false, travelLimit := 600, drive := false, travel := none, limitA := .broken, limitB := .broken,
          proofLost := false, interlock := 0, proveTime := 300, runDown := 300, flowLoss := 50, restarts := 1,
          tripWhenMade := false, prove := none, flow := none, run := none, uncommandedTimer := none, attempts := 0,
          unmet := 0, tripActive := false, uncommanded := false })
    ∧ State.reset.ptc.startQueue = [] ∧ State.reset.ptc.gap = none ∧ State.reset.ptc.startGap = 50
    ∧ (∀ p : PointId, (State.reset.measure p).count = 4 ∧ (State.reset.measure p).threshold = 500
        ∧ (State.reset.measure p).proven = false ∧ (State.reset.measure p).periods = []
        ∧ (State.reset.measure p).start = none ∧ (State.reset.measure p).lastHigh = none
        ∧ (State.reset.measure p).lastLow = none ∧ (State.reset.measure p).noEdge = none)
    ∧ (∀ g : GroupId, (State.reset.group g).owner = none ∧ (State.reset.group g).mode = .auto
        ∧ (State.reset.group g).stale = false ∧ (State.reset.group g).lastHeard = none
        ∧ State.reset.ovu.requested[g] = .auto)
    ∧ State.reset.ovu.rotation = none ∧ State.reset.ovu.localApply = false
    ∧ State.reset.bsc.queue = [] ∧ State.reset.bsc.attempt = none ∧ State.reset.bsc.fifo = []
    ∧ State.reset.bsc.linkStuck = false ∧ State.reset.bsc.dominant = none ∧ State.reset.bsc.recovery = none
    ∧ State.reset.bsc.syncDue = false ∧ State.reset.bsc.holdoff = none ∧ State.reset.bsc.duplicate = none
    ∧ State.reset.flu.active = [] ∧ State.reset.flu.tableFull = false ∧ State.reset.flu.latch = false
    ∧ State.reset.flu.firstCritical = none ∧ State.reset.flu.firstTrouble = none
    ∧ State.reset.flu.nextCritical = 0 ∧ State.reset.flu.nextTrouble = 0 ∧ State.reset.flu.noteSeen = 0
    ∧ State.reset.flu.troubleLine = false ∧ State.reset.flu.criticalLine = false
    ∧ State.reset.flu.trace[0] = some
        { serial := 0, time := 0, kind := .modeChanged, subject := 255, value1 := 255, value2 := 3 }
    ∧ (∀ i : Fin 128, i ≠ 0 → State.reset.flu.trace[i] = none)
    ∧ State.reset.flu.writePos = 1 ∧ State.reset.flu.nextSerial = 1
    ∧ State.reset.flu.late = [] ∧ State.reset.flu.waiting = []
    ∧ State.reset.cfl.station = none ∧ State.reset.cfl.loadResult = 0 ∧ State.reset.cfl.failingOffset = 0
    ∧ State.reset.cfl.digest = none ∧ State.reset.cfl.compareCount = none ∧ State.reset.cfl.ticks = 0
    ∧ State.reset.cfl.millis = 0
    ∧ State.reset.mnp.pointer = 0 ∧ State.reset.mnp.command = 0 ∧ State.reset.mnp.argHigh = 0
    ∧ State.reset.mnp.argLow = 0 ∧ State.reset.mnp.result = 0 ∧ State.reset.mnp.page = 0

/-- POWER_ON_RESET, RESET_FALLING_EDGE and STATION_RESET complete in every state, in STARTING (R75, R187). A power-on reset sets
every block to its values after a power-on reset. A station reset does so too, but that the first records, the next-fault sets,
the NOTE-seen set, the trouble latch, the trace and the station number survive, and the entry into STARTING is traced with the
mode left (R177 to R181, R184, R185), at time 0 (log 25: the model's choice). The queue of commands and the count of free values
drawn are the model's own and stay (log 2, log 11), and no onset is on the way (log 51). -/
def Obligations.ResetsRestoreStation : Prop :=
  (∀ s : State, ∃ t : State, Sys2Proof.Machine.exec .powerOnReset s = .next t
     ∧ t.liu = State.reset.liu ∧ t.ztu = State.reset.ztu ∧ t.age = State.reset.age ∧ t.prm = State.reset.prm
     ∧ t.sts = State.reset.sts ∧ t.ptc = State.reset.ptc ∧ t.pmu = State.reset.pmu ∧ t.ovu = State.reset.ovu
     ∧ t.bsc = State.reset.bsc ∧ t.flu = State.reset.flu ∧ t.cfl = State.reset.cfl
     ∧ t.mnp = { State.reset.mnp with drawn := s.mnp.drawn } ∧ t.pending = s.pending)
  ∧ (∀ c ∈ [Instr.resetFallingEdge, Instr.stationReset], ∀ s : State, ∃ t : State, Sys2Proof.Machine.exec c s = .next t
       ∧ t.liu = State.reset.liu ∧ t.ztu = State.reset.ztu ∧ t.age = State.reset.age ∧ t.prm = State.reset.prm
       ∧ t.sts = State.reset.sts ∧ t.ptc = State.reset.ptc ∧ t.pmu = State.reset.pmu ∧ t.ovu = State.reset.ovu
       ∧ t.bsc = State.reset.bsc
       ∧ t.flu.active = [] ∧ t.flu.tableFull = false ∧ t.flu.severities = State.reset.flu.severities
       ∧ t.flu.late = [] ∧ t.flu.waiting = []
       ∧ t.flu.firstCritical = s.flu.firstCritical ∧ t.flu.firstTrouble = s.flu.firstTrouble
       ∧ t.flu.nextCritical = s.flu.nextCritical ∧ t.flu.nextTrouble = s.flu.nextTrouble
       ∧ t.flu.noteSeen = s.flu.noteSeen ∧ t.flu.latch = s.flu.latch
       ∧ t.flu.troubleLine = s.flu.latch ∧ t.flu.criticalLine = false
       ∧ t.flu.trace[s.flu.writePos] = some
           { serial := s.flu.nextSerial, time := 0, kind := .modeChanged, subject := 255, value1 := s.prm.mode.code,
             value2 := 3 }
       ∧ (∀ i : Fin 128, i ≠ s.flu.writePos → t.flu.trace[i] = s.flu.trace[i])
       ∧ t.flu.writePos = s.flu.writePos + 1 ∧ t.flu.nextSerial = s.flu.nextSerial + 1
       ∧ t.cfl = { State.reset.cfl with station := s.cfl.station }
       ∧ t.mnp = { State.reset.mnp with drawn := s.mnp.drawn } ∧ t.pending = s.pending)

/-- RESET_END in STARTING, with the reset not yet ended, samples the straps and begins the read of the memory, and changes
nothing else (R188); elsewhere it changes nothing (log 24). -/
def Obligations.ResetEndSamplesStraps : Prop :=
  ∀ (straps : StationId) (s : State), ∃ t : State, Sys2Proof.Machine.exec (.resetEnd straps) s = .next t
    ∧ (s.prm.mode = .starting → s.cfl.stage = .held →
        t = s.withCfl { s.cfl with station := some straps, stage := .reading })
    ∧ ((s.prm.mode ≠ .starting ∨ s.cfl.stage ≠ .held) → t = s)

/-- IMAGE_LOAD of an image that fails its checks completes in CONFIG-FAULT: the result and the offset of the failure held,
CONFIG-BAD in the Active Fault Table at severity CRITICAL, both output lines active, and nothing else changed but the
records and the trace of the FLU (R181, R189, R190). In STARTING the table is empty and no onset is late (`InactiveIsBare`). -/
def Obligations.RejectedImageGivesConfigFault : Prop :=
  ∀ (inputs : StartInputs) (s : State) (f : LoadFailure),
    s.prm.mode = .starting → s.cfl.stage = .reading → s.flu.active = [] → s.flu.late = [] →
    checkImage inputs.memory s.number = .error f →
    ∃ t : State, Sys2Proof.Machine.exec (.imageLoad inputs) s = .next t
      ∧ t = (((s.withPrm { s.prm with mode := .configFault }).withCfl
          { s.cfl with stage := .done, loadResult := f.result, failingOffset := f.offset }).withFlu t.flu)
      ∧ t.flu.active = [{ kind := .configBad, subject := 255, severity := .critical, onset := s.now }]
      ∧ t.flu.troubleLine = true ∧ t.flu.criticalLine = true

/-- IMAGE_LOAD of an image that passes its checks completes in JOINING after reset, with the join wait of 2.0 s, the VIEW period
of 1.0 s and the solo timer at the absence limit, the time since start 0, and the configured parts of the blocks as the records
of the image give them: zones, lines, command lines at the level present (R33), programs, groups, severities, the start gap, the
claim window, the absence limit and the compare count (R1, R38, R68, R69, R77, R87, R125, R150, R177, R189, R191, R192). From a
station bare as a reset leaves it (`InactiveIsBare`), a point is set up as its record says: UNUSED with its levels sampled, a
damper lying where its limits show it under REST (R110, R113), a fan STOPPING with its run-down and attempts in full and the
dampers not OPEN unmet (R128), or at once TRIPPED; DAMPER-LIMITS and FAN-TRIP are reported of it; the measurement record of a
fan is filled and restarted (R142, R145). The model's choices: the set-up faults and the trip are taken in JOINING (log 18),
point n is bit n of an interlock set (log 49), the level of input A is kept (log 26), and a run-down of 0 takes one tick (log
32). -/
def Obligations.AcceptedImageGivesJoining : Prop :=
  ∀ (inputs : StartInputs) (s : State) (image : LoadedImage),
    s.prm.mode = .starting → s.cfl.stage = .reading →
    checkImage inputs.memory s.number = .ok image →
    ∃ t : State, Sys2Proof.Machine.exec (.imageLoad inputs) s = .next t
      ∧ t.prm.mode = .joiningAfterReset ∧ t.prm.joinWait = some 200 ∧ t.prm.viewPeriod = some 100
      ∧ t.prm.solo = some (10 * t.cfl.absence)
      ∧ t.cfl.station = s.cfl.station ∧ t.cfl.image = image.bytes ∧ t.cfl.loadResult = 1
      ∧ t.cfl.digest = some (digestOf image.bytes) ∧ t.cfl.ticks = 0
      ∧ t.prm.configured = configuredAtStart image.records
      ∧ (∀ z : ZoneId, (t.zone z).cfg = (zoneAtStart image.records s.number z).cfg
          ∧ (t.zone z).copy = (zoneAtStart image.records s.number z).copy)
      ∧ (∀ l : LineId, (t.line l).cfg = (lineAtStart image.records l).cfg)
      ∧ (∀ l : LineId, t.liu.commands[l] =
          let f := functionAtStart image.records l
          let level := if f = .unused then .broken else inputs.contacts[l]
          { function := f, raw := level, debounced := level, timer := none })
      ∧ t.sts.programs = Vector.ofFn (programAtStart image.records)
      ∧ t.sts.points = Vector.ofFn (pointProgramAtStart image.records)
      ∧ (∀ g : GroupId, (t.group g).owner = ownerAtStart image.records g)
      ∧ t.flu.severities = Vector.ofFn (severityAtStart image.records)
      ∧ t.ptc.startGap = timingAtStart image.records 16 0 50
      ∧ t.cfl.claimWindow = timingAtStart image.records 1 0 30 ∧ t.cfl.absence = timingAtStart image.records 1 2 40
      ∧ t.cfl.compareCount = some (headerCount image.bytes)
      ∧ t.mnp = s.mnp ∧ t.pending = s.pending
      ∧ (InactiveIsBare s → t.ptc.startQueue = [] ∧ t.ptc.gap = none ∧ ∀ p : PointId,
          let a := inputs.inputA[p]
          let b := inputs.inputB[p]
          (findRecord image.records 20 p.val = none →
              t.point p = .unused (UnusedPoint.reset a b) ∧ t.measure p = State.reset.measure p)
          ∧ (∀ r, findRecord image.records 20 p.val = some r → r.b 1 = 1 →
              t.measure p = State.reset.measure p ∧ ∃ x, t.point p = .damper
                { energiseToShut := (BitVec.ofNat 8 (r.b 3)).getLsbD 0, travelLimit := r.w 4, demand := .rest, state := x,
                  drive := false, travel := none, limitA := a, limitB := b, settleA := none, settleB := none,
                  proofLost := false }
                ∧ (a = .made → b = .broken → x = .isOpen) ∧ (a = .broken → b = .made → x = .isShut)
                ∧ (a = .broken → b = .broken → x = .mid)
                ∧ (a = .made → b = .made → x = .limitConflict
                    ∧ (t.severity .damperLimits ≠ .masked → t.flu.holds .damperLimits (byteOf p.val) = true)))
          ∧ (∀ r, findRecord image.records 20 p.val = some r → r.b 1 = 2 →
              let whenMade := (BitVec.ofNat 8 (r.b 3)).getLsbD 1
              let trips : Prop := b = .made ↔ whenMade = true
              ∃ unmet : PointSet,
                (∀ q : PointId, has unmet q.val = (has (BitVec.ofNat 16 (r.w 11)) q.val && !isOpenDamper (t.point q)))
                ∧ t.point p = .fan
                  { interlock := BitVec.ofNat 16 (r.w 11), proveTime := r.w 4, runDown := r.w 6, flowLoss := r.w 8,
                    restarts := r.b 10, tripWhenMade := whenMade, demand := .rest,
                    state := if trips then .tripped else .stopping, drive := false, prove := none, flow := none,
                    run := if trips then none else some (max 1 (10 * r.w 6)), uncommandedTimer := none,
                    attempts := r.b 10, unmet := unmet, inputB := b, settleB := none, uncommanded := false,
                    noFlow := false, flowLost := false }
                ∧ (trips → t.severity .fanTrip ≠ .masked → t.flu.holds .fanTrip (byteOf p.val) = true)
                ∧ t.measure p = { count := r.b 13, threshold := r.w 14, proven := false, periods := [], start := none,
                                  lastHigh := none, lastLow := none, noEdge := some (4 * r.w 14), level := a,
                                  lastRise := none, lastFall := none }))

/-- TICK in JOINING, ON-LINE and ISLAND: the time since start rises by one tick, every running timer counted in ticks loses one,
the settle intervals follow the sampled inputs, an UNUSED point's levels are sampled, a no-edge timer loses 10 ms, the Receive
FIFO is handed in order, the line monitor and the watch for an idle line follow the line, and nothing else changes (R110, R111,
R126, R144, R159, R168, R172, R173, R192; log 1, log 3, log 9, log 10, log 50, log 55), until the FLU takes the reports that were
on the way to it: of each group, one event's reports in the order handed, those up to the first onset that the tick names as late,
while the rest of the group stays (R177, R178); an onset so taken bears the time of the tick (log 51: the model's choices). In
STARTING and CONFIG-FAULT the tick is stopped (R187, R190). -/
def Obligations.TickCountsTimers : Prop :=
  ∀ (x : TickSamples) (s : State),
    let stays (r : FaultReport) : Bool :=
      match r with
      | .onset k subject _ momentary => !momentary && decide ({ code := byteOf k.code, subject := subject } ∈ x.late)
      | .clear .. => false
    (s.isActive = false → Sys2Proof.Machine.exec (.tick x) s = .next s)
    ∧ (s.isActive = true → ∃ e t : State, Sys2Proof.Machine.exec (.tick x) s = .next e
      ∧ (s.flu.waiting = [] → e = t)
      ∧ (∃ kept taken : List (List FaultReport), kept.length = s.flu.waiting.length ∧ taken.length = s.flu.waiting.length
          ∧ (∀ (i : Nat) (group : List FaultReport), s.flu.waiting[i]? = some group →
              ∃ now later, taken[i]? = some now ∧ kept[i]? = some later ∧ group = now ++ later
                ∧ (∀ r ∈ now, stays r = false) ∧ ∀ r, later.head? = some r → stays r = true)
          ∧ e = sweep (taken.flatten) (fun y r => match r with
              | .onset k subject detail momentary => y.takeOnset k subject detail momentary
              | .clear k subject => y.takeClear k subject) t
          ∧ t.flu = { s.flu with late := x.late, waiting := kept.filter fun group => decide (group ≠ []) })
      ∧ (∀ (k : FaultKind) (subject : Byte) (detail : Detail) (y : State), y.cfl = t.cfl → y.onsetTaken k subject false = true →
          y.flu.active.length < 32 → (y.recordOnset k subject detail false).flu.active
            = y.flu.active ++ [{ kind := k, subject := subject, severity := y.severity k, onset := t.now }])
      ∧ t.cfl = { s.cfl with ticks := s.cfl.ticks + 1, millis := 0 }
      ∧ t.ztu = s.ztu ∧ t.ovu = s.ovu ∧ t.mnp = s.mnp ∧ t.pending = s.pending
      ∧ t.age = { s.age with window := timerCount s.age.window 1 }
      ∧ t.sts = { s.sts with stepTimer := timerCount s.sts.stepTimer 1, repeatTimer := timerCount s.sts.repeatTimer 1 }
      ∧ (∀ l : LineId, t.line l = { s.line l with
          timer := timerCount (s.line l).timer 1, window := timerCount (s.line l).window 1 })
      ∧ (∀ l : LineId, t.liu.commands[l] = { s.liu.commands[l] with timer := timerCount (s.liu.commands[l]).timer 1 })
      ∧ t.liu.session = s.liu.session.map (fun y => { y with timer := timerCount y.timer 1 })
      ∧ t.liu.lastCondition = s.liu.lastCondition ∧ t.liu.lastRequested = s.liu.lastRequested
      ∧ (∀ n : StationId, t.presence n = { s.presence n with age := timerCount (s.presence n).age 1 })
      ∧ t.prm.mode = s.prm.mode ∧ t.prm.configured = s.prm.configured ∧ t.prm.joinWait = timerCount s.prm.joinWait 1
      ∧ t.prm.viewPeriod = timerCount s.prm.viewPeriod 1 ∧ t.prm.solo = timerCount s.prm.solo 1
      ∧ t.ptc.gap = timerCount s.ptc.gap 1 ∧ t.ptc.startQueue = s.ptc.startQueue ∧ t.ptc.startGap = s.ptc.startGap
      ∧ (∀ (p : PointId) (u : UnusedPoint), s.point p = .unused u →
          t.point p = .unused { u with limitA := x.inputA[p], limitB := x.inputB[p] })
      ∧ (∀ (p : PointId) (d : Damper), s.point p = .damper d →
          t.point p = .damper { d with
            travel := timerCount d.travel 1,
            settleA := if x.inputA[p] = d.limitA then none else some ((d.settleA.map fun n => n - 1).getD 10),
            settleB := if x.inputB[p] = d.limitB then none else some ((d.settleB.map fun n => n - 1).getD 10) })
      ∧ (∀ (p : PointId) (f : Fan), s.point p = .fan f →
          t.point p = .fan { f with
            prove := timerCount f.prove 1, flow := timerCount f.flow 1, run := timerCount f.run 1,
            uncommandedTimer := timerCount f.uncommandedTimer 1,
            settleB := if x.inputB[p] = f.inputB then none else some ((f.settleB.map fun n => n - 1).getD 10) })
      ∧ (∀ p : PointId, t.measure p = { s.measure p with noEdge := timerCount (s.measure p).noEdge 10 })
      ∧ t.bsc.handed = s.bsc.handed ++ s.bsc.fifo ∧ t.bsc.fifo = [] ∧ t.bsc.queue = s.bsc.queue
      ∧ t.bsc.attempt = s.bsc.attempt ∧ t.bsc.linkStuck = s.bsc.linkStuck ∧ t.bsc.syncDue = s.bsc.syncDue
      ∧ t.bsc.ownError = s.bsc.ownError
      ∧ t.bsc.holdoff = timerCount s.bsc.holdoff 1 ∧ t.bsc.duplicate = timerCount s.bsc.duplicate 1
      ∧ (x.line = .dominant → t.bsc.recovery = none
          ∧ t.bsc.dominant = if s.bsc.linkStuck = true ∧ 250 ≤ x.heldBits then none else some (250 - x.heldBits))
      ∧ (x.line = .recessive → t.bsc.dominant = none
          ∧ t.bsc.recovery = if s.bsc.linkStuck = true then some (1250 - x.heldBits) else none)
      ∧ (x.quietBits = none → t.bsc.watch = .frame)
      ∧ (∀ bits, x.quietBits = some bits → t.bsc.watch =
          if x.line = .recessive then .outside (min bits 10) else .outside 0))

/-! ## Detection and command lines -/

/-- READING_EVENT of an assigned line completes, with the line moved by the state machine of section 2.3: a candidate, a toggle,
CHATTER, CLEARING, a fault state, or only the reading in ISOLATED (R18, R20 to R26). A band that gives the reading already held
gives no event (R18). LINE_TIMER_EXPIRY completes: CONFIRMING becomes ACTIVE, CLEARING and CHATTER become NORMAL, and the timer
stops (R21, R23, R24). Every other line and every command line is unchanged by either. The line reports LINE-OPEN, LINE-SHORT
and LINE-CHATTER with its new state as detail (R21, R23, R25, R26; log 35), a late onset staying on the way (log 51), and then,
where its state changed, its zone is derived anew (R29; log 5), and last the AGE takes the notices (log 6): the model's choices.
A home zone's new condition is kept as handed and in the Zone Table with the time, and its ZONE-REPORT is queued (R4, R9). Into
ALARM in ON-LINE or ISLAND it gives the home alarm notice (R12), and the AGE takes it: in IDLE it queues the CLAIM of the next
epoch, in GATHERING that of the epoch for a zone on no list, in RUNNING it appends the zone and makes the escalation test (R45);
in ISLAND with an IDLE view it runs the next fire of the highest-ranked home zone in ALARM at once, and queues its CLAIM (R65).
The CLAIM stands in the queue where that is in the order of its classes, as every run keeps it (`BusInOrder`), and has room for
the ZONE-REPORT. -/
def Obligations.DetectionLineMoves : Prop :=
  (∀ (z : ZoneId) (s : State),
    let c := s.deriveCondition z
    let fresh : Prop := s.isHome z = true ∧ s.liu.lastCondition[z] ≠ c
    let t : State := State.withNotices (s.rederive z)
    let kept : State := s.withLiu { s.liu with lastCondition := put s.liu.lastCondition z c }
    let sorted : Prop := s.bsc.queue.Pairwise fun x y => x.bulletin.cls ≤ y.bulletin.cls
    let reported : State := (kept.setZone z { s.zone z with condition := c, lastReport := some s.now }).queue
      (.zoneReport (byteOf z.val) c.code)
    (¬fresh → t = s)
    ∧ (fresh → (s.zone z).condition = c → t = kept)
    ∧ (fresh → (s.zone z).condition ≠ c →
        ((s.isActive = true → s.bsc.queue.length < 8 → Queued reported (.zoneReport (byteOf z.val) c.code))
        ∧ ((c ≠ .alarm ∨ s.prm.mode.joined = false) → t = reported)
        ∧ (c = .alarm → s.prm.mode = .onLine → s.age.view.phase = .idle →
            t = reported.queue (.claim (s.age.view.epoch + 1) (byteOf z.val))
              ∧ (sorted → s.bsc.queue.length < 8 → Queued t (.claim (s.age.view.epoch + 1) (byteOf z.val))))
        ∧ (c = .alarm → s.prm.mode.joined = true → s.age.view.phase = .gathering →
            ((z ∈ s.age.candidates ∨ z ∈ s.age.subsequent) → t = reported)
            ∧ (z ∉ s.age.candidates → z ∉ s.age.subsequent → t = reported.queue (.claim s.age.view.epoch (byteOf z.val))))
        ∧ (c = .alarm → s.prm.mode.joined = true → s.age.view.phase = .running →
            t = (reported.withAge (s.age.append z)).escalationTest)
        ∧ (c = .alarm → s.prm.mode = .island → s.age.view.phase = .idle →
            ∃ y, reported.homeAlarms.head? = some y ∧ t.age.view.epoch = s.age.view.epoch + 1
              ∧ t.age.view.phase = .running ∧ t.age.view.escalated = false ∧ t.age.view.origin = some y
              ∧ t.age.view.scenario = s.scenarioOf y
              ∧ (sorted → s.bsc.queue.length < 8 → Queued t (.claim (s.age.view.epoch + 1) (byteOf y.val)))))))
  ∧ (∀ (l : LineId) (band : Band) (s : State), s.isActive = true → (s.line l).cfg.zone ≠ none →
    (readingOf (s.line l).cfg.normallyClosed band = (s.line l).reading →
      Sys2Proof.Machine.exec (.readingEvent l band) s = .next s)
    ∧ (readingOf (s.line l).cfg.normallyClosed band ≠ (s.line l).reading →
      let r := s.line l
      let reading := readingOf r.cfg.normallyClosed band
      let candidate : LineRecord :=
        if r.cfg.confirm = 0 then { r with reading := reading, state := .active }
        else { r with reading := reading, state := .confirming, timer := some (10 * r.cfg.confirm),
                      window := some (r.window.getD 1000) }
      let ended : List FaultKind :=
        if r.state = .openFault ∧ reading ≠ .openCircuit then [.lineOpen]
        else if r.state = .shortFault ∧ reading ≠ .shortCircuit then [.lineShort]
        else if r.state = .chatter ∧ (reading = .openCircuit ∨ reading = .shortCircuit) then [.lineChatter]
        else []
      let begun : List FaultKind :=
        if r.state = .isolated then []
        else if reading = .openCircuit then [.lineOpen]
        else if reading = .shortCircuit then [.lineShort]
        else if r.state = .confirming ∧ reading = .normal ∧ r.cfg.chatterLimit ≤ r.toggles + 1 then [.lineChatter]
        else []
      ∃ t w : State, Sys2Proof.Machine.exec (.readingEvent l band) s = .next t
        ∧ w = ((s.setLine l (w.line l)).withFlu w.flu).withBsc w.bsc
        ∧ HandsFaults s w (byteOf l.val) (.line (w.line l).state) ended begun
        ∧ t.line l = w.line l ∧ ((w.line l).state = r.state → t = w)
        ∧ (∀ z, r.cfg.zone = some z → (w.line l).state ≠ r.state → t = State.withNotices (w.rederive z))
        ∧ (∀ k : LineId, k ≠ l → t.line k = s.line k) ∧ t.liu.commands = s.liu.commands
        ∧ (r.state = .isolated → t.line l = { r with reading := reading })
        ∧ (r.state ≠ .isolated → reading = .openCircuit →
            t.line l = { r with reading := reading, state := .openFault, timer := none, window := none, toggles := 0 })
        ∧ (r.state ≠ .isolated → reading = .shortCircuit →
            t.line l = { r with reading := reading, state := .shortFault, timer := none, window := none, toggles := 0 })
        ∧ ((r.state = .normal ∨ r.state = .openFault ∨ r.state = .shortFault) → reading = .active →
            t.line l = candidate)
        ∧ ((r.state = .openFault ∨ r.state = .shortFault) → reading = .normal →
            t.line l = { r with reading := reading, state := .normal })
        ∧ (r.state = .confirming → reading = .normal → r.toggles + 1 < r.cfg.chatterLimit →
            t.line l = { r with reading := reading, state := .normal, timer := none, toggles := r.toggles + 1 })
        ∧ (r.state = .confirming → reading = .normal → r.cfg.chatterLimit ≤ r.toggles + 1 →
            t.line l = { r with reading := reading, state := .chatter, timer := some (10 * r.cfg.clear), window := none,
                                toggles := 0 })
        ∧ (r.state = .active → reading = .normal →
            t.line l = { r with reading := reading, state := .clearing, timer := some (10 * r.cfg.clear) })
        ∧ (r.state = .clearing → reading = .active →
            t.line l = { r with reading := reading, state := .active, timer := none })
        ∧ (r.state = .chatter → reading = .normal →
            t.line l = { r with reading := reading, timer := some (10 * r.cfg.clear) })
        ∧ (r.state = .chatter → reading = .active → t.line l = { r with reading := reading, timer := none })))
  ∧ ∀ (l : LineId) (s : State), s.isActive = true → (s.line l).timer = some 0 →
      ∃ t w : State, Sys2Proof.Machine.exec (.lineTimerExpiry l) s = .next t
        ∧ w = ((s.setLine l (w.line l)).withFlu w.flu).withBsc w.bsc
        ∧ HandsFaults s w (byteOf l.val) (.line (w.line l).state)
            (if (s.line l).state = .chatter then [.lineChatter] else []) []
        ∧ t.line l = w.line l ∧ (((w.line l).state = (s.line l).state ∨ (s.line l).cfg.zone = none) → t = w)
        ∧ (∀ z, (s.line l).cfg.zone = some z → (w.line l).state ≠ (s.line l).state →
            t = State.withNotices (w.rederive z))
        ∧ (∀ k : LineId, k ≠ l → t.line k = s.line k) ∧ t.liu.commands = s.liu.commands
        ∧ ((s.line l).state = .confirming → t.line l = { s.line l with state := .active, timer := none })
        ∧ ((s.line l).state = .clearing → t.line l = { s.line l with state := .normal, timer := none })
        ∧ ((s.line l).state = .chatter → t.line l = { s.line l with state := .normal, timer := none })

/-- R24: the way of a line through CLEARING, with the order of the reading and the expiry, no toggle counted, and the line
counted as active for its zone. -/
def Obligations.ClearingLineReturns : Prop :=
  ∀ (l : LineId) (s : State), s.isActive = true → (s.line l).cfg.zone ≠ none →
    (∀ band, (s.line l).state = .active → (s.line l).reading ≠ .normal →
      readingOf (s.line l).cfg.normallyClosed band = .normal →
      ∃ t : State, Sys2Proof.Machine.exec (.readingEvent l band) s = .next t ∧ (t.line l).state = .clearing
        ∧ (t.line l).timer = some (10 * (s.line l).cfg.clear) ∧ (t.line l).toggles = (s.line l).toggles)
    ∧ (∀ band, (s.line l).state = .clearing → (s.line l).reading ≠ .active →
      readingOf (s.line l).cfg.normallyClosed band = .active →
      ∃ t : State, Sys2Proof.Machine.exec (.readingEvent l band) s = .next t ∧ (t.line l).state = .active
        ∧ (t.line l).timer = none ∧ (t.line l).toggles = (s.line l).toggles
        ∧ Sys2Proof.Machine.exec (.lineTimerExpiry l) t = .next t)
    ∧ ((s.line l).state = .clearing → (s.line l).timer = some 0 →
      ∃ t : State, Sys2Proof.Machine.exec (.lineTimerExpiry l) s = .next t ∧ (t.line l).state = .normal
        ∧ (t.line l).timer = none ∧ (t.line l).toggles = (s.line l).toggles
        ∧ ∀ band, (s.line l).reading ≠ .active → readingOf (s.line l).cfg.normallyClosed band = .active →
            (s.line l).cfg.confirm ≠ 0 →
            ∃ u : State, Sys2Proof.Machine.exec (.readingEvent l band) t = .next u ∧ (u.line l).state = .confirming
              ∧ (u.line l).timer = some (10 * (s.line l).cfg.confirm)
              ∧ (u.line l).window = some ((s.line l).window.getD 1000))
    ∧ (∀ z : ZoneId, (s.line l).cfg.zone = some z → (s.line l).state = .clearing → s.inTest l = false →
      s.deriveCondition z = .alarm)

/-- R22: the chatter window is not started again while it runs; its expiry sets the toggle count to 0 and leaves the state;
it is stopped and the count set to 0 at the entry into CHATTER, a fault state or ISOLATED; and the order of its expiry and a
toggle decides the count. -/
def Obligations.ChatterWindowCounts : Prop :=
  ∀ (l : LineId) (s : State), s.isActive = true → (s.line l).cfg.zone ≠ none →
    (∀ band, (s.line l).state = .normal → (s.line l).reading ≠ .active → (s.line l).cfg.confirm ≠ 0 →
      readingOf (s.line l).cfg.normallyClosed band = .active →
      ∃ t : State, Sys2Proof.Machine.exec (.readingEvent l band) s = .next t
        ∧ (t.line l).window = some ((s.line l).window.getD 1000))
    ∧ ((s.line l).window = some 0 →
      ∃ t : State, Sys2Proof.Machine.exec (.chatterWindowExpiry l) s = .next t
        ∧ t = s.setLine l { s.line l with window := none, toggles := 0 }
        ∧ ∀ band, (s.line l).state = .confirming → (s.line l).reading ≠ .normal → 1 < (s.line l).cfg.chatterLimit →
            readingOf (s.line l).cfg.normallyClosed band = .normal →
            ∃ u : State, Sys2Proof.Machine.exec (.readingEvent l band) t = .next u ∧ (u.line l).toggles = 1)
    ∧ (∀ band, (s.line l).state = .confirming → (s.line l).reading ≠ .normal →
      readingOf (s.line l).cfg.normallyClosed band = .normal →
      ∃ t : State, Sys2Proof.Machine.exec (.readingEvent l band) s = .next t
        ∧ ((s.line l).cfg.chatterLimit ≤ (s.line l).toggles + 1 → (t.line l).state = .chatter
            ∧ (t.line l).window = none ∧ (t.line l).toggles = 0)
        ∧ ((s.line l).toggles + 1 < (s.line l).cfg.chatterLimit → (t.line l).toggles = (s.line l).toggles + 1
            ∧ ((s.line l).window = some 0 →
                ∃ u : State, Sys2Proof.Machine.exec (.chatterWindowExpiry l) t = .next u ∧ (u.line l).toggles = 0
                  ∧ (u.line l).window = none ∧ (u.line l).state = .normal)))
    ∧ (∀ band, (s.line l).state ≠ .isolated → (s.line l).reading ≠ readingOf (s.line l).cfg.normallyClosed band →
      (band = .openBand ∨ band = .shortBand) →
      ∃ t : State, Sys2Proof.Machine.exec (.readingEvent l band) s = .next t ∧ (t.line l).window = none ∧ (t.line l).toggles = 0)
    ∧ ((s.line l).state ≠ .isolated → s.prm.mode.joined = true → s.age.view.phase = .idle →
      ∃ t : State, Sys2Proof.Machine.exec (.isolate (BitVec.ofNat 16 l.val)) s = .next t ∧ (t.line l).state = .isolated
        ∧ (t.line l).window = none ∧ (t.line l).toggles = 0)

/-- R28: the condition of a zone that has lines, from its lines, by the first that applies. -/
def Obligations.ZoneConditionFromLines : Prop :=
  ∀ (z : ZoneId) (s : State),
    let inZone (l : LineId) : Prop := (s.line l).cfg.zone = some z
    let alarm : Prop := ∃ l, inZone l
      ∧ (((s.line l).state.inActive = true ∧ s.inTest l = false)
        ∨ ((s.line l).state = .chatter ∧ (s.line l).cfg.chatterAlarm = true))
    let fault : Prop := ∃ l, inZone l
      ∧ ((s.line l).state.inFault = true ∨ ((s.line l).state = .chatter ∧ (s.line l).cfg.chatterAlarm = false))
    let test : Prop := ∃ l, inZone l ∧ (s.line l).state.inActive = true ∧ s.inTest l = true
    let isolated : Prop := ∀ l, inZone l → (s.line l).state = .isolated
    (∃ l, inZone l) →
      (alarm → s.deriveCondition z = .alarm)
      ∧ (¬alarm → fault → s.deriveCondition z = .fault)
      ∧ (¬alarm → ¬fault → test → s.deriveCondition z = .test)
      ∧ (¬alarm → ¬fault → ¬test → isolated → s.deriveCondition z = .isolated)
      ∧ (¬alarm → ¬fault → ¬test → ¬isolated → s.deriveCondition z = .quiet)

/-- RAW_LEVEL_CHANGE and LEVEL_CHANGE of a command line complete (R32): the raw level is read of every line whose function is not
UNUSED and restarts or stops the debounce timer; at the expiry the debounced level takes the raw level. A STAND-DOWN key operated
while a fire stands and no heard copy holds ALARM queues STAND-DOWN; one operated while an entry in copy state HOME, CURRENT or
STALE holds ALARM queues no bulletin, and the momentary fault STAND-DOWN-REFUSED is reported, subject the highest-ranked such
zone; and one operated in IDLE changes nothing else (R34, R60); a switch of an own group hands the requested mode on where it is
new (R35, R152). The requested mode is that of the table of R35: OFF where a GROUP-OFF line of the group is active, else ON where
a GROUP-ON line is, else AUTO. -/
def Obligations.CommandLineDebounces : Prop :=
  (∀ (g : GroupId) (s : State),
    let on : Prop := ∃ k : LineId, (s.liu.commands[k]).function = .groupOn g ∧ (s.liu.commands[k]).debounced = .made
    let off : Prop := ∃ k : LineId, (s.liu.commands[k]).function = .groupOff g ∧ (s.liu.commands[k]).debounced = .made
    (off → s.deriveRequested g = .off) ∧ (on → ¬off → s.deriveRequested g = .on)
      ∧ (¬on → ¬off → s.deriveRequested g = .auto))
  ∧ ∀ (l : LineId) (s : State), s.isActive = true →
    (∀ level, ∃ t : State, Sys2Proof.Machine.exec (.rawLevelChange l level) s = .next t
      ∧ (((s.liu.commands[l]).function = .unused ∨ level = (s.liu.commands[l]).raw) → t = s)
      ∧ ((s.liu.commands[l]).function ≠ .unused → level ≠ (s.liu.commands[l]).raw →
          t = s.setCommand l { s.liu.commands[l] with
            raw := level, timer := if level = (s.liu.commands[l]).debounced then none else some 50 }))
    ∧ ((s.liu.commands[l]).timer = some 0 →
      let r : CommandRecord := { s.liu.commands[l] with debounced := (s.liu.commands[l]).raw, timer := none }
      ∃ t : State, Sys2Proof.Machine.exec (.levelChange l) s = .next t
        ∧ t.liu.commands = put s.liu.commands l r ∧ t.liu.lines = s.liu.lines
        ∧ (∀ falling, r.function = .standDown falling →
            ((falling = true ↔ r.raw = .made) → t = s.setCommand l r)
            ∧ (s.prm.mode.joined = false → t = s.setCommand l r)
            ∧ (s.age.view.phase = .idle → t = s.setCommand l r)
            ∧ ((falling = true ↔ r.raw = .broken) → s.prm.mode.joined = true → s.age.view.phase ≠ .idle →
                s.alarmsHeard = [] → s.bsc.queue.length < 8 → Queued t (.standDown s.age.view.epoch))
            ∧ ((falling = true ↔ r.raw = .broken) → s.prm.mode.joined = true → s.age.view.phase ≠ .idle →
                s.alarmsHeard ≠ [] → (∀ e, Queued t (.standDown e) → Queued s (.standDown e)))
            ∧ ((falling = true ↔ r.raw = .broken) → s.prm.mode.joined = true → s.age.view.phase ≠ .idle →
                (∃ z : ZoneId, (s.zone z).copy ≠ .unheard ∧ (s.zone z).condition = .alarm) →
                ∃ z : ZoneId, (s.zone z).copy ≠ .unheard ∧ (s.zone z).condition = .alarm
                  ∧ (∀ y : ZoneId, (s.zone y).copy ≠ .unheard → (s.zone y).condition = .alarm → s.rank y ≤ s.rank z)
                  ∧ t = (s.setCommand l r).onset .standDownRefused (byteOf z.val) .none true
                  ∧ MomentaryRecorded s t .standDownRefused (byteOf z.val) .none))
        ∧ (∀ g, r.function.group = some g → s.ownsGroup g = true →
            s.liu.lastRequested[g] ≠ (s.setCommand l r).deriveRequested g →
            t.ovu.requested[g] = (s.setCommand l r).deriveRequested g
              ∧ t.liu.lastRequested[g] = (s.setCommand l r).deriveRequested g
              ∧ (s.ovu.localApply = false → s.bsc.queue.length < 8 → Queued t (.override (byteOf g.val)
                  ((s.setCommand l r).deriveRequested g).code))))

/-! ## Maintenance commands -/

/-- ISOLATE and RESTORE complete (R26, R27, R194). Accepted, ISOLATE puts the named line into ISOLATED with its timers stopped,
RESTORE takes it out by the reading held, and the result shows the code and outcome 1; a line already there is unchanged. ISOLATE
reports the clear of the LINE-OPEN, LINE-SHORT or LINE-CHATTER that the line's state holds, RESTORE the onset of LINE-OPEN or
LINE-SHORT by the reading, each with the line's new state as detail (R26, R27; log 35), a late onset staying on the way (log 51);
then, where the state changed, its zone is derived anew (R29; log 5) and the AGE takes the notices (log 6): the model's choices.
Refused by mode, phase or argument, in this order, they change nothing but the result. -/
def Obligations.IsolateAndRestoreLine : Prop :=
  ∀ (argument : BitVec 16) (s : State),
    (∀ l : LineId, argument.toNat = l.val → s.prm.mode.joined = true → s.age.view.phase = .idle →
      (s.line l).cfg.zone ≠ none →
      let ended : List FaultKind :=
        if (s.line l).state = .openFault then [.lineOpen]
        else if (s.line l).state = .shortFault then [.lineShort]
        else if (s.line l).state = .chatter then [.lineChatter]
        else []
      let begun : List FaultKind :=
        if (s.line l).state ≠ .isolated then []
        else if (s.line l).reading = .openCircuit then [.lineOpen]
        else if (s.line l).reading = .shortCircuit then [.lineShort]
        else []
      let reports (t : State) (clears onsets : List FaultKind) : Prop := ∃ w : State,
        w = ((s.setLine l (w.line l)).withFlu w.flu).withBsc w.bsc
        ∧ HandsFaults s w (byteOf l.val) (.line (w.line l).state) clears onsets ∧ t.line l = w.line l
        ∧ ((w.line l).state = (s.line l).state → t = w.withMnp t.mnp)
        ∧ (∀ z, (s.line l).cfg.zone = some z → (w.line l).state ≠ (s.line l).state →
            t = (State.withNotices (w.rederive z)).withMnp t.mnp)
      (∃ t : State, Sys2Proof.Machine.exec (.isolate argument) s = .next t ∧ ShowsResult s t 0x61 ∧ reports t ended []
        ∧ (∀ k : LineId, k ≠ l → t.line k = s.line k) ∧ t.liu.commands = s.liu.commands
        ∧ ((s.line l).state = .isolated → t.line l = s.line l)
        ∧ ((s.line l).state ≠ .isolated →
            t.line l = { s.line l with state := .isolated, timer := none, window := none, toggles := 0 }))
      ∧ (∃ t : State, Sys2Proof.Machine.exec (.restore argument) s = .next t ∧ ShowsResult s t 0x71 ∧ reports t [] begun
        ∧ (∀ k : LineId, k ≠ l → t.line k = s.line k) ∧ t.liu.commands = s.liu.commands
        ∧ ((s.line l).state ≠ .isolated → t.line l = s.line l)
        ∧ ((s.line l).state = .isolated → (s.line l).reading = .normal → (t.line l).state = .normal)
        ∧ ((s.line l).state = .isolated → (s.line l).reading = .active → (s.line l).cfg.confirm = 0 →
            (t.line l).state = .active)
        ∧ ((s.line l).state = .isolated → (s.line l).reading = .active → (s.line l).cfg.confirm ≠ 0 →
            (t.line l).state = .confirming ∧ (t.line l).timer = some (10 * (s.line l).cfg.confirm)
              ∧ (t.line l).window = some ((s.line l).window.getD 1000))
        ∧ ((s.line l).state = .isolated → (s.line l).reading = .openCircuit → (t.line l).state = .openFault)
        ∧ ((s.line l).state = .isolated → (s.line l).reading = .shortCircuit → (t.line l).state = .shortFault)))
    ∧ (s.prm.mode.joined = false →
        (∃ t : State, Sys2Proof.Machine.exec (.isolate argument) s = .next t ∧ t = s.withMnp t.mnp ∧ ShowsResult s t 0x62)
        ∧ (∃ t : State, Sys2Proof.Machine.exec (.restore argument) s = .next t ∧ t = s.withMnp t.mnp ∧ ShowsResult s t 0x72))
    ∧ (s.prm.mode.joined = true → s.age.view.phase ≠ .idle →
        (∃ t : State, Sys2Proof.Machine.exec (.isolate argument) s = .next t ∧ t = s.withMnp t.mnp ∧ ShowsResult s t 0x63)
        ∧ (∃ t : State, Sys2Proof.Machine.exec (.restore argument) s = .next t ∧ t = s.withMnp t.mnp ∧ ShowsResult s t 0x73))
    ∧ (s.prm.mode.joined = true → s.age.view.phase = .idle →
        (∀ l : LineId, argument.toNat = l.val → (s.line l).cfg.zone = none) →
        (∃ t : State, Sys2Proof.Machine.exec (.isolate argument) s = .next t ∧ t = s.withMnp t.mnp ∧ ShowsResult s t 0x64)
        ∧ (∃ t : State, Sys2Proof.Machine.exec (.restore argument) s = .next t ∧ t = s.withMnp t.mnp ∧ ShowsResult s t 0x74))

/-- TEST_ON completes (R30, R194): accepted, the session starts with the named lines and 60 minutes and no line changes; refused
by mode, phase, argument or state, in this order, it changes nothing but the result. An argument with bits above the eight
lines is refused as an argument (log 30). In ISLAND the zones' conditions are taken as last handed (`ZonesInOrder`). TEST_OFF and
SESSION_TIMER_EXPIRY complete: the session is ended and no line changes its record (R31); TEST_OFF before image acceptance is
refused by mode (R194). -/
def Obligations.WalkTestStartsAndEnds : Prop :=
  (∀ (argument : BitVec 16) (s : State),
    let good : Prop := argument.toNat < 256 ∧ argument ≠ 0
      ∧ ∀ l : LineId, has argument l.val = true → (s.line l).cfg.zone ≠ none
    let busy : Prop := s.liu.session ≠ none
      ∨ ∃ l : LineId, has argument l.val = true
        ∧ ((s.line l).state = .active ∨ (s.line l).state = .clearing ∨ (s.line l).state = .chatter)
    (s.prm.mode.joined = true → s.age.view.phase = .idle → good → ¬busy → ZonesInOrder s →
      ∃ t : State, Sys2Proof.Machine.exec (.testOn argument) s = .next t ∧ ShowsResult s t 0x41
        ∧ t.liu.session = some { lines := argument.extractLsb' 0 8, timer := some 360000 }
        ∧ t.liu.lines = s.liu.lines ∧ t.liu.commands = s.liu.commands)
    ∧ (s.prm.mode.joined = false →
      ∃ t : State, Sys2Proof.Machine.exec (.testOn argument) s = .next t ∧ t = s.withMnp t.mnp ∧ ShowsResult s t 0x42)
    ∧ (s.prm.mode.joined = true → s.age.view.phase ≠ .idle →
      ∃ t : State, Sys2Proof.Machine.exec (.testOn argument) s = .next t ∧ t = s.withMnp t.mnp ∧ ShowsResult s t 0x43)
    ∧ (s.prm.mode.joined = true → s.age.view.phase = .idle → ¬good →
      ∃ t : State, Sys2Proof.Machine.exec (.testOn argument) s = .next t ∧ t = s.withMnp t.mnp ∧ ShowsResult s t 0x44)
    ∧ (s.prm.mode.joined = true → s.age.view.phase = .idle → good → busy →
      ∃ t : State, Sys2Proof.Machine.exec (.testOn argument) s = .next t ∧ t = s.withMnp t.mnp ∧ ShowsResult s t 0x45))
  ∧ ∀ s : State,
    (s.isActive = true → ∃ t : State, Sys2Proof.Machine.exec .testOff s = .next t ∧ ShowsResult s t 0x51
      ∧ t.liu.session = none ∧ t.liu.lines = s.liu.lines ∧ t.liu.commands = s.liu.commands
      ∧ (s.liu.session = none → t = s.withMnp t.mnp))
    ∧ (s.isActive = false → ∃ t : State, Sys2Proof.Machine.exec .testOff s = .next t ∧ t = s.withMnp t.mnp ∧ ShowsResult s t 0x52)
    ∧ (∀ set, s.isActive = true → s.liu.session = some { lines := set, timer := some 0 } →
      ∃ t : State, Sys2Proof.Machine.exec .sessionTimerExpiry s = .next t ∧ t.liu.session = none
        ∧ t.liu.lines = s.liu.lines ∧ t.liu.commands = s.liu.commands ∧ t.mnp = s.mnp)

/-- R183: CLEAR_LOG completes in every mode and empties the FLU's records, sets, latch and full flag; the table and the trace stay,
the lines follow the table, and the first onset of each severity afterwards fills its record. The result is R194's. -/
def Obligations.ClearLogEmptiesRecords : Prop :=
  ∀ s : State, ∃ t : State, Sys2Proof.Machine.exec .clearLog s = .next t
    ∧ ShowsResult s t 0x11 ∧ t = (s.withFlu t.flu).withMnp t.mnp
    ∧ t.flu = { s.flu with
        firstCritical := none, firstTrouble := none, nextCritical := 0, nextTrouble := 0, noteSeen := 0, latch := false,
        tableFull := false,
        troubleLine := s.flu.active.any (fun e => e.severity == .trouble || e.severity == .critical),
        criticalLine := s.flu.active.any (fun e => e.severity == .critical) }
    ∧ (∀ k j d b, t.onsetTaken k j b = true → t.severity k = .critical →
        (t.recordOnset k j d b).flu.firstCritical = some (t.firstRecord k j d))
    ∧ (∀ k j d b, t.onsetTaken k j b = true → t.severity k = .trouble →
        (t.recordOnset k j d b).flu.firstTrouble = some (t.firstRecord k j d))

/-- LINK_RESTART completes (R174, R194): the attempt ends, both queues are emptied, a frame in decoding is abandoned (log 50), a
SYNC-REQUEST is queued with the holdoff started, the escalation epoch becomes none and the escalation test is made; LINK-STUCK,
the duplicate timer and every other block stay. In STARTING and CONFIG-FAULT it is refused. The escalation test passes with a
target exactly under the six conditions of R58, on a subsequent-zone list of at most eight. -/
def Obligations.LinkRestartEmptiesQueues : Prop :=
  (∀ (s : State) (c : ScenarioId), s.age.subsequent.length ≤ 8 →
    let program := s.sts.programs[s.age.view.scenario]
    (s.escalationTarget = some c ↔
      (s.prm.mode = .onLine ∨ s.prm.mode = .island) ∧ s.age.view.phase = .running ∧ s.age.view.escalated = false
        ∧ 1 ≤ program.escalationCount ∧ program.escalationCount ≤ 8
        ∧ program.escalationCount ≤ s.age.subsequent.length
        ∧ program.escalationTarget = some c ∧ s.age.escalationEpoch ≠ some (s.age.view.epoch + 1)))
  ∧ ∀ s : State,
    (s.isActive = false →
      ∃ t : State, Sys2Proof.Machine.exec .linkRestart s = .next t ∧ t = s.withMnp t.mnp ∧ ShowsResult s t 0x22)
    ∧ (s.isActive = true →
      let sync : TxEntry := { bulletin := .syncRequest, queuedAt := s.cfl.ticks, attempts := 0, inAttempt := false }
      let cleared : State := s.withAge { s.age with escalationEpoch := none }
      ∃ t : State, Sys2Proof.Machine.exec .linkRestart s = .next t ∧ ShowsResult s t 0x21
        ∧ t.bsc.attempt = none ∧ t.bsc.fifo = [] ∧ t.bsc.syncDue = false ∧ t.bsc.holdoff = some 100
        ∧ t.bsc.handed = s.bsc.handed ∧ t.bsc.linkStuck = s.bsc.linkStuck ∧ t.bsc.dominant = s.bsc.dominant
        ∧ t.bsc.recovery = s.bsc.recovery ∧ t.bsc.duplicate = s.bsc.duplicate ∧ t.bsc.ownError = false
        ∧ (s.bsc.watch = .frame → t.bsc.watch = .outside 0) ∧ (s.bsc.watch ≠ .frame → t.bsc.watch = s.bsc.watch)
        ∧ (cleared.escalationTarget = none → t.bsc.queue = [sync] ∧ t.age = cleared.age)
        ∧ (∀ c, cleared.escalationTarget = some c →
            Queued t .syncRequest ∧ t.bsc.queue.length = 2
              ∧ Queued t (.escalate (s.age.view.epoch + 1) (zoneByte s.age.view.origin) (byteOf c.val))
              ∧ t.age = { s.age with escalationEpoch := some (s.age.view.epoch + 1) })
        ∧ t.liu = s.liu ∧ t.ztu = s.ztu ∧ t.prm = s.prm ∧ t.sts = s.sts ∧ t.ptc = s.ptc ∧ t.pmu = s.pmu ∧ t.ovu = s.ovu
        ∧ t.flu = s.flu ∧ t.cfl = s.cfl ∧ t.pending = s.pending)

/-- TRACE_PAGE selects a page of 0 to 15 and refuses others; UNKNOWN_COMMAND gives outcome 6; neither reaches another block
(R194). The high four bits of the result of a code above 15 are free (log 11). -/
def Obligations.PageAndUnknownCommand : Prop :=
  ∀ s : State,
    (∀ argument : BitVec 16, argument.toNat < 16 → ∃ t : State, Sys2Proof.Machine.exec (.tracePage argument) s = .next t
      ∧ t = s.withMnp t.mnp ∧ t.mnp.page.val = argument.toNat
      ∧ t.mnp = { s.mnp with page := t.mnp.page, command := 0, result := 0x81, drawn := s.mnp.drawn + 1 })
    ∧ (∀ argument : BitVec 16, 16 ≤ argument.toNat → ∃ t : State, Sys2Proof.Machine.exec (.tracePage argument) s = .next t
      ∧ t = s.withMnp t.mnp ∧ ShowsResult s t 0x84)
    ∧ (∀ code : Byte, (code = 0 ∨ 8 < code.toNat) → ∃ t : State, Sys2Proof.Machine.exec (.unknownCommand code) s = .next t
      ∧ t = s.withMnp t.mnp ∧ t.mnp.command = 0 ∧ t.mnp.result.extractLsb' 0 4 = 6
      ∧ (code.toNat < 16 → t.mnp.result.extractLsb' 4 4 = code.extractLsb' 0 4)
      ∧ t.mnp = { s.mnp with command := 0, result := t.mnp.result, drawn := s.mnp.drawn + 1 })

/-- WRITE_TRANSFER completes (R193, R194): at another address it changes nothing; fewer than two bytes leave the pointer; two set
it, high byte first; a code written at 0x10 with its argument behind it is the command handed over; a byte written outside
0x10 to 0x12 is discarded. A command is taken at the end of its transfer (log 30). -/
def Obligations.WriteTransferWritesRegisters : Prop :=
  ∀ (address : BitVec 7) (s : State),
    (∀ bytes, (s.cfl.station = none ∨ ∃ n, s.cfl.station = some n ∧ address.toNat ≠ 64 + n.val) →
      Sys2Proof.Machine.exec (.writeTransfer address bytes) s = .next s)
    ∧ (∀ n, s.cfl.station = some n → address.toNat = 64 + n.val →
      Sys2Proof.Machine.exec (.writeTransfer address []) s = .next s
      ∧ (∀ b, Sys2Proof.Machine.exec (.writeTransfer address [b]) s = .next s)
      ∧ (∀ hi lo, Sys2Proof.Machine.exec (.writeTransfer address [hi, lo]) s
          = .next (s.withMnp { s.mnp with pointer := hi ++ lo }))
      ∧ (∀ hi lo b, (hi ++ lo : BitVec 16) ≠ 0x10 → (hi ++ lo : BitVec 16) ≠ 0x11 → (hi ++ lo : BitVec 16) ≠ 0x12 →
          Sys2Proof.Machine.exec (.writeTransfer address [hi, lo, b]) s
            = .next (s.withMnp { s.mnp with
                pointer := if (hi ++ lo : BitVec 16) = 0xFFFF then 0xFFFF else (hi ++ lo) + 1 }))
      ∧ (∀ high low : Byte,
          let at_ (code : Byte) : State :=
            s.withMnp { s.mnp with pointer := 0x13, command := code, argHigh := high, argLow := low }
          let sent (code : Byte) : Instr := .writeTransfer address [0x00, 0x10, code, high, low]
          Sys2Proof.Machine.exec (sent 1) s = Sys2Proof.Machine.exec .clearLog (at_ 1)
            ∧ Sys2Proof.Machine.exec (sent 2) s = Sys2Proof.Machine.exec .linkRestart (at_ 2)
            ∧ Sys2Proof.Machine.exec (sent 3) s = Sys2Proof.Machine.exec .stationReset (at_ 3)
            ∧ Sys2Proof.Machine.exec (sent 4) s = Sys2Proof.Machine.exec (.testOn (high ++ low)) (at_ 4)
            ∧ Sys2Proof.Machine.exec (sent 5) s = Sys2Proof.Machine.exec .testOff (at_ 5)
            ∧ Sys2Proof.Machine.exec (sent 6) s = Sys2Proof.Machine.exec (.isolate (high ++ low)) (at_ 6)
            ∧ Sys2Proof.Machine.exec (sent 7) s = Sys2Proof.Machine.exec (.restore (high ++ low)) (at_ 7)
            ∧ Sys2Proof.Machine.exec (sent 8) s = Sys2Proof.Machine.exec (.tracePage (high ++ low)) (at_ 8)
            ∧ ∀ code : Byte, (code = 0 ∨ 8 < code.toNat) →
                Sys2Proof.Machine.exec (sent code) s = Sys2Proof.Machine.exec (.unknownCommand code) (at_ code)))

/-- READ_TRANSFER completes (R193): the bytes served are those of the window as it stood, from the pointer on, the pointer rises
by the count and stops at 0xFFFF, and nothing else changes but that the bytes served are kept (log 33) and the count of free
values drawn rises by one (log 12); at another address it changes nothing. -/
def Obligations.ReadTransferServesWindow : Prop :=
  ∀ (address : BitVec 7) (count : Nat) (s : State),
    ((s.cfl.station = none ∨ ∃ n, s.cfl.station = some n ∧ address.toNat ≠ 64 + n.val) →
      Sys2Proof.Machine.exec (.readTransfer address count) s = .next s)
    ∧ (∀ n, s.cfl.station = some n → address.toNat = 64 + n.val →
      ∃ t : State, Sys2Proof.Machine.exec (.readTransfer address count) s = .next t ∧ t = s.withMnp t.mnp
        ∧ t.mnp = { s.mnp with pointer := t.mnp.pointer, served := t.mnp.served, drawn := s.mnp.drawn + 1 }
        ∧ t.mnp.pointer.toNat = min (s.mnp.pointer.toNat + count) 0xFFFF
        ∧ t.mnp.served.length = count
        ∧ (∀ i, i < count → t.mnp.served[i]? = some (s.windowByte (min (s.mnp.pointer.toNat + i) 0xFFFF))))

/-- The window map (R193, section 11.4) byte by byte, with the rules that order its areas (R36, R67, R86, R109, R124, R149, R158,
R176, R179, R186): identity, command, Scenario Record, steps, zones, report times, lines, presence, overrides, demands, mode,
points, measurement records, queues and BSC, faults, records and trace page, and 255 outside them. A remaining time is stated
where it is a whole number of its unit (log 12). The model's choices: codes by order follow log 15, filling and the free bits of a
zone entry log 14, the fields behind a flag byte log 44, the no-edge time log 10, and the compare count and the format version,
255 while none before acceptance, log 25, and the two bytes of the next serial log 54. -/
def Obligations.WindowShowsState : Prop :=
  ∀ s : State,
    let two (v : Nat) : List Byte := [byteOf (v / 256), byteOf v]
    let four (v : Nat) : List Byte := two (v / 65536) ++ two v
    let time (t : Option Nat) : List Byte :=
      match t with
      | none => [255, 255]
      | some v => if v % 65536 = 65535 then two 65534 else two v
    let flag (b : Bool) : Byte := if b then 1 else 0
    let level (l : Level) : Byte := if l = .made then 0 else 1
    let station (n : Option StationId) : Byte := byteOf ((n.map fun x => x.val).getD 255)
    let zone (z : Option ZoneId) : Byte := byteOf ((z.map fun x => x.val).getD 255)
    let remains (base : Nat) (t : Timer) : Prop :=
      (t = none → s.windowBytes base 2 = [255, 255]) ∧ ∀ v, t = some (10 * v) → s.windowBytes base 2 = two v
    let millis (base : Nat) (t : Timer) : Prop :=
      (t = none → s.windowBytes base 2 = [255, 255]) ∧ ∀ v, t = some (125 * v) → s.windowBytes base 2 = two (2 * v)
    let duration (base : Nat) (d : Option Nat) : Prop :=
      (d = none → s.windowBytes base 3 = [0, 255, 255]) ∧ ∀ v, d = some v → v < 65536 → s.windowBytes base 3 = 1 :: two v
    let first (base : Nat) (r : Option FirstRecord) : Prop :=
      (r = none → s.windowBytes base 16 = 0 :: List.replicate 15 255)
      ∧ ∀ x, r = some x → s.windowBytes base 16 =
          [1, byteOf x.kind.code, x.subject] ++ time (some x.onset) ++ [x.mode.code] ++ two x.epoch.toNat
            ++ [byteOf x.phase.code.toNat, byteOf x.scenario.val, byteOf x.step.val]
            ++ (match x.detail with
                | .none => [255, 255, 255, 255, 255]
                | .point a b => [a.code, b.code, 255, 255, 255]
                | .line a => [a.code, 255, 255, 255, 255]
                | .station t => time t ++ [255, 255, 255]
                | .step c missing => byteOf c.val :: four missing.toNat
                | .lost c => [if c = .attempts then 0 else 1, 255, 255, 255, 255])
    s.windowBytes 0x0000 16 =
        [station s.cfl.station, s.prm.mode.code, byteOf s.cfl.loadResult] ++ two s.cfl.failingOffset
          ++ two ((s.cfl.digest.map fun d => d.toNat).getD 65535)
          ++ byteOf (s.cfl.compareCount.getD 0xFFFFFF / 65536) :: two (s.cfl.compareCount.getD 0xFFFFFF)
          ++ four s.now ++ [if s.cfl.compareCount = none then 255 else 1, 255]
    ∧ s.windowBytes 0x0010 4 = [s.mnp.command, s.mnp.argHigh, s.mnp.argLow, s.mnp.result]
    ∧ s.windowBytes 0x0020 10 =
        two s.age.view.epoch.toNat ++ [byteOf s.age.view.phase.code.toNat, flag s.age.view.escalated,
          zone s.age.view.origin, byteOf s.age.view.scenario.val, byteOf s.age.view.step.val, flag s.age.view.established,
          flag s.age.void, byteOf s.age.candidates.length]
    ∧ (s.age.candidates.length ≤ 8 → s.age.subsequent.length ≤ 8 →
        (∀ i, i < 8 → s.windowByte (0x002A + i) = zone s.age.candidates[i]?)
        ∧ s.windowByte 0x0032 = byteOf s.age.subsequent.length
        ∧ (∀ i, i < 8 → s.windowByte (0x0033 + i) = zone s.age.subsequent[i]?)
        ∧ remains 0x003B s.age.window ∧ (∀ a, 0x0040 ≤ a → a < 0x0060 → s.windowByte a = 255)
        ∧ s.windowBytes 0x003D 3 = (match s.age.escalationEpoch with
            | none => [0, 255, 255]
            | some e => 1 :: two e.toNat))
    ∧ s.windowByte 0x0060 = byteOf s.sts.step.val ∧ remains 0x0061 s.sts.stepTimer
    ∧ s.windowBytes 0x0063 5 = four s.sts.expected.toNat ++ [flag s.sts.ownSettled] ∧ remains 0x0068 s.sts.repeatTimer
    ∧ s.windowBytes 0x006A 4 = two s.sts.epoch.toNat ++ [byteOf s.sts.scenario.val, flag s.sts.established]
    ∧ (∀ k : Fin 8, s.windowBytes (0x006E + 9 * k.val) 9 =
        four (s.sts.rows[k]).heard.toNat ++ four (s.sts.rows[k]).withFaults.toNat
          ++ [match (s.sts.rows[k]).completion with | .opened => 0 | .barrier => 1 | .forced => 2 | .caughtUp => 3])
    ∧ (∀ z : ZoneId,
        let last : Byte := ((s.zone z).condition.code <<< 4) ||| (s.zone z).copy.code
        s.windowBytes (0x0100 + 4 * z.val) 4 = (match (s.zone z).cfg with
          | none => [0, 0, 0, last]
          | some c => [byteOf (128 + c.home.val), byteOf c.rank, byteOf c.scenario.val, last])
        ∧ s.windowBytes (0x0200 + 2 * z.val) 2 = time (s.zone z).lastReport)
    ∧ (∀ l : LineId, s.windowBytes (0x0280 + 8 * l.val) 4 =
          [zone (s.line l).cfg.zone, (s.line l).state.code, (s.line l).reading.code, byteOf (s.line l).toggles]
        ∧ remains (0x0284 + 8 * l.val) (s.line l).timer ∧ remains (0x0286 + 8 * l.val) (s.line l).window
        ∧ s.windowBytes (0x02C4 + 3 * l.val) 3 =
            [match (s.liu.commands[l]).function with
              | .unused => 0 | .standDown _ => 1 | .groupOn _ => 2 | .groupOff _ => 3,
             level (s.liu.commands[l]).raw, level (s.liu.commands[l]).debounced])
    ∧ (s.liu.session = none → s.windowBytes 0x02C0 4 = [0, 0, 255, 255])
    ∧ (∀ x, s.liu.session = some x → s.windowBytes 0x02C0 2 = [1, x.lines] ∧ remains 0x02C2 x.timer)
    ∧ (∀ n : StationId, s.windowByte (0x0300 + 16 * n.val) = (s.presence n).state.code
        ∧ s.windowBytes (0x0301 + 16 * n.val) 2 = time (s.presence n).lastHeard
        ∧ s.windowBytes (0x0303 + 16 * n.val) 10 = (match (s.presence n).summary with
            | none => List.replicate 10 255
            | some v => two v.epoch.toNat ++ [byteOf v.phase.toNat, flag v.escalated, flag v.established, v.origin,
                v.scenario, v.step, byteOf v.mode.toNat, flag v.trouble])
        ∧ s.windowBytes (0x030D + 16 * n.val) 3 = (match (s.presence n).digest with
            | none => [0, 255, 255]
            | some d => 1 :: two d.toNat))
    ∧ (∀ g : GroupId, s.windowBytes (0x0500 + 5 * g.val) 5 =
          [station (s.group g).owner, (s.group g).mode.code, flag (s.group g).stale] ++ time (s.group g).lastHeard
        ∧ s.windowByte (0x0550 + g.val) = (if (s.group g).owner = some s.number then (s.ovu.requested[g]).code else 255)
        ∧ s.windowByte (0x02DC + g.val) = (if (s.group g).owner = some s.number then (s.liu.lastRequested[g]).code else 255))
    ∧ s.windowBytes 0x0560 2 = [byteOf ((s.ovu.rotation.map fun g => g.val).getD 255), flag s.ovu.localApply]
    ∧ (∀ p : PointId,
        s.windowByte (0x0580 + p.val) = ((s.sts.demands[p]).demand.code <<< 4) ||| (s.sts.demands[p]).source.code
        ∧ s.windowByte (0x0590 + p.val) = ((s.sts.frozen[p]).demand.code <<< 4) ||| (s.sts.frozen[p]).source.code)
    ∧ s.windowBytes 0x05A0 2 = [flag s.sts.viewSettled, flag s.sts.standDownPending]
    ∧ s.windowByte 0x05C0 = s.prm.mode.code ∧ remains 0x05C1 s.prm.joinWait ∧ remains 0x05C3 s.prm.viewPeriod
    ∧ remains 0x05C5 s.prm.solo ∧ s.windowBytes 0x05C7 4 = four s.prm.configured.toNat
    ∧ (∀ p : PointId,
        (∀ u, s.point p = .unused u → s.windowByte (0x0600 + 32 * p.val) = 0)
        ∧ (∀ d, s.point p = .damper d →
            s.windowBytes (0x0600 + 32 * p.val) 9 =
                [1, flag d.energiseToShut] ++ two d.travelLimit ++ [d.demand.code, d.state.code,
                  if d.drive then 0 else 1, level d.limitA, level d.limitB]
            ∧ remains (0x0609 + 32 * p.val) d.travel ∧ s.windowByte (0x060B + 32 * p.val) = flag d.proofLost)
        ∧ (∀ f, s.point p = .fan f →
            s.windowBytes (0x0600 + 32 * p.val) 15 =
                [2] ++ two f.interlock.toNat ++ two f.proveTime ++ two f.runDown ++ two f.flowLoss ++ [byteOf f.restarts,
                  flag f.tripWhenMade, f.demand.code, f.state.code, if f.drive then 0 else 1,
                  if (f.inputB = .made ↔ f.tripWhenMade = true) then 0 else 1]
            ∧ remains (0x060F + 32 * p.val) f.prove ∧ remains (0x0611 + 32 * p.val) f.flow
            ∧ remains (0x0613 + 32 * p.val) f.run ∧ remains (0x0615 + 32 * p.val) f.uncommandedTimer
            ∧ s.windowBytes (0x0617 + 32 * p.val) 4 = [byteOf f.attempts] ++ two f.unmet.toNat ++ [flag f.uncommanded])
        ∧ ((s.point p).isFan = false → s.windowBytes (0x0800 + 16 * p.val) 16 = List.replicate 16 255)
        ∧ ((s.point p).isFan = true →
            let m := s.measure p
            s.windowBytes (0x0800 + 16 * p.val) 5 =
                [byteOf m.count] ++ two m.threshold ++ [if m.proven then 0 else 1, byteOf m.periods.length]
            ∧ duration (0x0805 + 16 * p.val) (if m.periods.length = m.count then
                some ((m.periods.map fun x => x.1 + x.2).sum / m.periods.length) else none)
            ∧ duration (0x0808 + 16 * p.val) m.lastHigh ∧ duration (0x080B + 16 * p.val) m.lastLow
            ∧ (m.noEdge = none → s.windowBytes (0x080E + 16 * p.val) 2 = [255, 255])
            ∧ (∀ v, m.noEdge = some v → s.windowBytes (0x080E + 16 * p.val) 2 = two (v - s.cfl.millis))))
    ∧ s.windowByte 0x0900 = byteOf s.ptc.startQueue.length
    ∧ (s.ptc.startQueue.length ≤ 16 → s.bsc.queue.length ≤ 8 →
        (∀ i, i < 16 → s.windowByte (0x0901 + i) = byteOf ((s.ptc.startQueue[i]?.map fun p => p.val).getD 255))
        ∧ ((∀ p : PointId, (s.point p).isStarting = false) → s.windowByte 0x0911 = 255)
        ∧ (∀ p : PointId, (s.point p).isStarting = true → (∀ q, (s.point q).isStarting = true → q = p) →
            s.windowByte 0x0911 = byteOf p.val)
        ∧ remains 0x0912 s.ptc.gap ∧ s.windowByte 0x0914 = byteOf s.bsc.queue.length
        ∧ (∀ i, i < 8 → s.windowBytes (0x0915 + 4 * i) 4 = (match s.bsc.queue[i]? with
            | none => [255, 255, 255, 255]
            | some e => [byteOf e.bulletin.kindCode.toNat, byteOf e.bulletin.cls.toNat, byteOf e.attempts,
                flag e.inAttempt]))
        ∧ s.windowBytes 0x0935 3 = [byteOf s.bsc.fifo.length,
            if s.bsc.linkStuck then 2 else if s.bsc.attempt = none then 0 else 1, flag s.bsc.linkStuck]
        ∧ millis 0x0938 s.bsc.dominant ∧ millis 0x093A s.bsc.recovery ∧ s.windowByte 0x093C = flag s.bsc.syncDue
        ∧ remains 0x093D s.bsc.holdoff ∧ remains 0x093F s.bsc.duplicate)
    ∧ (∀ i, i < 32 → s.windowBytes (0x0A00 + 8 * i) 8 = (match s.flu.active[i]? with
        | none => List.replicate 8 255
        | some e => [byteOf e.kind.code, e.subject, e.severity.code] ++ time (some e.onset) ++ [255, 255, 255]))
    ∧ s.windowByte 0x0B00 = byteOf s.flu.active.length
    ∧ first 0x0B01 s.flu.firstCritical ∧ first 0x0B11 s.flu.firstTrouble
    ∧ s.windowBytes 0x0B21 9 =
        byteOf (s.flu.nextCritical.toNat / 65536) :: two s.flu.nextCritical.toNat
          ++ byteOf (s.flu.nextTrouble.toNat / 65536) :: two s.flu.nextTrouble.toNat
          ++ byteOf (s.flu.noteSeen.toNat / 65536) :: two s.flu.noteSeen.toNat
    ∧ s.windowBytes 0x0B2A 8 =
        [flag s.flu.latch, flag s.flu.tableFull, if s.flu.troubleLine then 0 else 1, if s.flu.criticalLine then 0 else 1,
          byteOf s.flu.writePos.val] ++ two s.flu.nextSerial.toNat ++ [byteOf s.mnp.page.val]
    ∧ (∀ (i : Fin 8) (j : Fin 128), j.val = 8 * s.mnp.page.val + i.val →
        s.windowBytes (0x0B80 + 8 * i.val) 8 = (match s.flu.trace[j] with
          | none => List.replicate 8 255
          | some e => two e.serial.toNat ++ time (some e.time) ++ [e.kind.code, e.subject, e.value1, e.value2]))
    ∧ (∀ a : Nat, ((0x0014 ≤ a ∧ a < 0x0020) ∨ (0x00B6 ≤ a ∧ a < 0x0100)
        ∨ (0x02EC ≤ a ∧ a < 0x0300) ∨ (0x0562 ≤ a ∧ a < 0x0580) ∨ (0x05A2 ≤ a ∧ a < 0x05C0) ∨ (0x05CB ≤ a ∧ a < 0x0600)
        ∨ (0x0980 ≤ a ∧ a < 0x0A00) ∨ (0x0B32 ≤ a ∧ a < 0x0B80) ∨ 0x0BC0 ≤ a) →
        s.windowByte a = 255)

/-! ## Bulletins -/

/-- CLAIM of an in-use zone completes, whichever of the PRM and the AGE takes it first. At an epoch ahead, or while the view is
void, it opens the window: GATHERING at its epoch with the zone as the leading and only candidate, the window timer in full
(R48). Otherwise it is taken by the relation of the epochs and the phase: a candidate, a subsequent zone, or ignored (R49; an
epoch that differs by 32768 is ignored, log 38: the model's choice). To one ignored, in IDLE at the own epoch or behind it in any
phase, a VIEW is queued, where the sender is this station or a LIVE one of no other digest, outside ISLAND, and the queue has room
(R49). One that names a zone out of use, or a number of 64 or above, is discarded: it leaves the Scenario Record, and at the own
number everything but the bulletin taken (R42). -/
def Obligations.ClaimIsTaken : Prop :=
  (∀ (src : Source) (order : TakeOrder) (epoch : Epoch) (zone : Byte) (z : ZoneId) (rest : List RxEntry) (s : State),
     FirstHanded s (.claim epoch zone) src rest → s.zoneOfByte zone = some z →
     (s.age.void = true ∨ ahead epoch s.age.view.epoch = true) →
     ∃ t : State, Sys2Proof.Machine.exec (.claim src order epoch zone) s = .next t ∧ t.bsc.handed = rest
       ∧ t.age.view.epoch = epoch ∧ t.age.view.phase = .gathering ∧ t.age.view.escalated = false
       ∧ t.age.view.origin = some z ∧ t.age.view.scenario = 0 ∧ t.age.void = false
       ∧ t.age.candidates = [z] ∧ t.age.subsequent = [] ∧ t.age.window = some (10 * s.cfl.claimWindow))
  ∧ (∀ (src : Source) (order : TakeOrder) (epoch : Epoch) (zone : Byte) (z : ZoneId) (rest : List RxEntry) (s : State),
       FirstHanded s (.claim epoch zone) src rest → s.zoneOfByte zone = some z →
       s.age.void = false → ahead epoch s.age.view.epoch = false →
       ∃ t : State, Sys2Proof.Machine.exec (.claim src order epoch zone) s = .next t ∧ t.bsc.handed = rest
         ∧ t.age.view.epoch = s.age.view.epoch ∧ t.age.view.phase = s.age.view.phase
         ∧ t.age.view.scenario = s.age.view.scenario ∧ t.age.window = s.age.window
         ∧ ((epoch ≠ s.age.view.epoch ∨ s.age.view.phase = .idle) → t.age.candidates = s.age.candidates
             ∧ t.age.subsequent = s.age.subsequent ∧ t.age.view.origin = s.age.view.origin)
         ∧ ((epoch ≠ s.age.view.epoch ∨ s.age.view.phase = .idle) → s.prm.mode ≠ .island →
             (src.sender = s.number ∨ (s.presence src.sender).state = .live) → Matches s src.sender →
             s.bsc.queue.length < 8 → Queued t t.viewBulletin)
         ∧ (epoch = s.age.view.epoch → s.age.view.phase = .gathering →
             (z ∈ s.age.candidates ∨ z ∈ s.age.subsequent) →
             t.age.candidates = s.age.candidates ∧ t.age.subsequent = s.age.subsequent
               ∧ t.age.view.origin = s.age.view.origin)
         ∧ (epoch = s.age.view.epoch → s.age.view.phase = .gathering → z ∉ s.age.candidates → z ∉ s.age.subsequent →
             s.age.candidates.length < 8 →
             t.age.candidates = s.age.candidates ++ [z] ∧ t.age.subsequent = s.age.subsequent
               ∧ (∀ y, s.age.view.origin = some y →
                   t.age.view.origin = if s.rank y < s.rank z then some z else some y))
         ∧ (epoch = s.age.view.epoch → s.age.view.phase = .gathering → z ∉ s.age.candidates → z ∉ s.age.subsequent →
             8 ≤ s.age.candidates.length →
             t.age.candidates = s.age.candidates ∧ t.age.subsequent = (s.age.append z).subsequent)
         ∧ (epoch = s.age.view.epoch → s.age.view.phase = .running →
             t.age.candidates = s.age.candidates ∧ t.age.subsequent = (s.age.append z).subsequent
               ∧ t.age.view.origin = s.age.view.origin))
  ∧ (∀ (src : Source) (order : TakeOrder) (epoch : Epoch) (zone : Byte) (rest : List RxEntry) (s : State),
       FirstHanded s (.claim epoch zone) src rest →
       (64 ≤ zone.toNat ∨ ∀ z : ZoneId, zone.toNat = z.val → (s.zone z).cfg = none) →
       ∃ t : State, Sys2Proof.Machine.exec (.claim src order epoch zone) s = .next t ∧ t.bsc.handed = rest
         ∧ SameRecord s t ∧ t.age.escalationEpoch = s.age.escalationEpoch
         ∧ (src.sender = s.number → t = s.withBsc { s.bsc with handed := rest }))

/-- ESCALATE completes (R42, R43, R51, R54, R59). Of a view that is adopted, the view runs at its epoch, escalated, with its
origin and scenario, and the escalation epoch is the bulletin's. Where it goes one epoch ahead of a RUNNING view not escalated,
the subsequent-zone list is kept, and of two origins the heard one leaves it, the displaced one heads it and VIEW-DISPUTE is
reported; else the list is emptied and takes the zones in alarm, by decreasing rank (R39, R40, R51, R54), a view heard in an
ESCALATE at the own epoch being taken as a new epoch (log 19: the model's choice). A walk test that ends at the adoption may hand
further zones (R31, R44), so the list is stated where none runs or the view was not IDLE. Of one that is not adopted, the
escalation epoch alone is taken; a lesser view is answered with a VIEW, an equal one with nothing, where the sender was LIVE or is
this station, outside ISLAND, and the queue has room. One that is discarded, or whose sender is MISMATCHED, leaves the Scenario
Record. -/
def Obligations.EscalateIsTaken : Prop :=
  (∀ (src : Source) (order : TakeOrder) (epoch : Epoch) (origin scenario : Byte) (v : View) (rest : List RxEntry) (s : State),
    FirstHanded s (.escalate epoch origin scenario) src rest → s.escalateView epoch origin scenario = some v →
    Matches s src.sender →
    ∃ t : State, Sys2Proof.Machine.exec (.escalate src order epoch origin scenario) s = .next t ∧ t.bsc.handed = rest
      ∧ t.age.escalationEpoch = some epoch
      ∧ (s.adopts v = true → t.age.view.epoch = epoch ∧ t.age.view.phase = .running ∧ t.age.view.escalated = true
          ∧ t.age.view.origin = v.origin ∧ t.age.view.scenario = v.scenario ∧ t.age.void = false
          ∧ t.age.candidates = [] ∧ t.age.window = none)
      ∧ (let own := s.age.view
          let goesOn : Prop := own.phase = .running ∧ own.escalated = false ∧ epoch = own.epoch + 1
          let alarmsTaken : List ZoneId := s.alarms.foldl (fun zones z =>
            if v.origin = some z ∨ z ∈ zones ∨ 8 ≤ zones.length then zones else zones ++ [z]) [];
          s.adopts v = true →
          (goesOn → own.origin = v.origin → t.age.subsequent = s.age.subsequent)
          ∧ (∀ d n, goesOn → own.origin = some d → v.origin = some n → n ≠ d →
              t.age.subsequent = (d :: s.age.subsequent.filter fun z => z != n).take 8
                ∧ MomentaryRecorded s t .viewDispute (byteOf d.val) .none)
          ∧ (¬goesOn → (s.liu.session = none ∨ own.phase ≠ .idle) → t.age.subsequent = alarmsTaken))
      ∧ (s.adopts v = false → SameRecord s t
          ∧ (s.prm.mode ≠ .island → (src.sender = s.number ∨ (s.presence src.sender).state = .live) →
              s.bsc.queue.length < 8 →
              (s.greater s.age.view v = true → txHoldsView t.bsc.queue = true)
              ∧ (s.greater s.age.view v = false → t.bsc.queue = s.bsc.queue))))
  ∧ ∀ (src : Source) (order : TakeOrder) (epoch : Epoch) (origin scenario : Byte) (rest : List RxEntry) (s : State),
      FirstHanded s (.escalate epoch origin scenario) src rest →
      (s.escalateView epoch origin scenario = none ∨ ¬Matches s src.sender) →
      ∃ t : State, Sys2Proof.Machine.exec (.escalate src order epoch origin scenario) s = .next t ∧ t.bsc.handed = rest
        ∧ SameRecord s t ∧ t.age.escalationEpoch = s.age.escalationEpoch

/-- STAND_DOWN completes (R43, R55, R61). Adopted, the view is IDLE at its epoch with its lists empty; or, where the station is in
ISLAND and a home zone holds ALARM when the phase notices are taken, the next fire has begun at once (R13, R65). Not adopted, it
changes nothing in the Scenario Record; a lesser view is answered with a VIEW, an equal one with nothing, where the sender was
LIVE or is this station, outside ISLAND, and the queue has room. One whose sender is MISMATCHED is not taken. -/
def Obligations.StandDownIsTaken : Prop :=
  ∀ (src : Source) (order : TakeOrder) (epoch : Epoch) (rest : List RxEntry) (s : State),
    FirstHanded s (.standDown epoch) src rest →
    ∃ t : State, Sys2Proof.Machine.exec (.standDown src order epoch) s = .next t ∧ t.bsc.handed = rest
      ∧ (Matches s src.sender → s.adopts (idleView epoch) = true → t.age.void = false
          ∧ ((t.age.view.phase = .idle ∧ t.age.view.epoch = epoch ∧ t.age.view.origin = none ∧ t.age.candidates = []
                ∧ t.age.subsequent = [] ∧ t.age.window = none)
            ∨ (s.prm.mode = .island ∧ s.age.view.phase ≠ .idle ∧ t.age.view.phase = .running
                ∧ t.age.view.epoch = epoch + 1 ∧ ∃ z, s.homeAlarms.head? = some z ∧ t.age.view.origin = some z))
          ∧ ((s.prm.mode ≠ .island ∨ s.homeAlarms = []) → t.age.view.phase = .idle))
      ∧ ((s.adopts (idleView epoch) = false ∨ ¬Matches s src.sender) →
          SameRecord s t ∧ t.age.escalationEpoch = s.age.escalationEpoch)
      ∧ (Matches s src.sender → s.adopts (idleView epoch) = false → s.prm.mode ≠ .island →
          (src.sender = s.number ∨ (s.presence src.sender).state = .live) → s.bsc.queue.length < 8 →
          (s.greater s.age.view (idleView epoch) = true → txHoldsView t.bsc.queue = true)
          ∧ (s.greater s.age.view (idleView epoch) = false → t.bsc.queue = s.bsc.queue))

/-- ZONE_REPORT completes (R5, R6, R8): accepted from the home station of an in-use zone that is not this station's own, it writes
the condition and the time, and the copy is CURRENT unless the same bulletin then marks its sender's copies STALE; otherwise
the conditions stand. -/
def Obligations.ZoneReportWritesCopy : Prop :=
  ∀ (src : Source) (order : TakeOrder) (zone condition : Byte) (rest : List RxEntry) (s : State),
    FirstHanded s (.zoneReport zone condition) src rest →
    ∃ t : State, Sys2Proof.Machine.exec (.zoneReport src order zone condition) s = .next t ∧ t.bsc.handed = rest
      ∧ (∀ (z : ZoneId) (c : Condition) (x : ZoneConfig), zone.toNat = z.val → condition = c.code →
          (s.zone z).cfg = some x → x.home = src.sender → (s.zone z).copy ≠ .home →
          (t.zone z).condition = c ∧ (t.zone z).lastReport = some s.now ∧ (t.zone z).cfg = some x
            ∧ ((order = .presenceFirst ∨ Matches s src.sender) → (t.zone z).copy = .current)
            ∧ (∀ y : ZoneId, y ≠ z → (t.zone y).condition = (s.zone y).condition
                ∧ (t.zone y).lastReport = (s.zone y).lastReport))
      ∧ ((64 ≤ zone.toNat ∨ 4 < condition.toNat
            ∨ (∀ z : ZoneId, zone.toNat = z.val → (s.zone z).copy = .home ∨ ∀ x, (s.zone z).cfg = some x → x.home ≠ src.sender)) →
          ∀ y : ZoneId, (t.zone y).condition = (s.zone y).condition ∧ (t.zone y).lastReport = (s.zone y).lastReport)

/-- OVERRIDE completes (R89, R154, R155): accepted from the group's owner, and for an own group only at loopback, it writes the
mode and the time and clears the stale flag, and a new mode ON or OFF sets the demand of the group's points; otherwise the
modes stand. -/
def Obligations.OverrideSetsGroup : Prop :=
  ∀ (src : Source) (order : TakeOrder) (group mode : Byte) (rest : List RxEntry) (s : State),
    FirstHanded s (.override group mode) src rest →
    ∃ t : State, Sys2Proof.Machine.exec (.override src order group mode) s = .next t ∧ t.bsc.handed = rest
      ∧ (∀ (g : GroupId) (m : GroupMode), group.toNat = g.val → mode = m.code → (s.group g).owner = some src.sender →
          (src.sender ≠ s.number ∨ src.origin = .loopback) →
          (t.group g).mode = m ∧ (t.group g).lastHeard = some s.now ∧ (t.group g).owner = some src.sender
            ∧ ((order = .presenceFirst ∨ Matches s src.sender) → (t.group g).stale = false)
            ∧ (∀ k : GroupId, k ≠ g → (t.group k).mode = (s.group k).mode
                ∧ (t.group k).lastHeard = (s.group k).lastHeard)
            ∧ (m ≠ (s.group g).mode → ∀ p : PointId, (s.sts.points[p]).group = some g →
                ((s.point p).isFan = true → m = .on → t.sts.demands[p] = { demand := .run, source := .override })
                ∧ ((s.point p).isFan = true → m = .off → t.sts.demands[p] = { demand := .stop, source := .override })
                ∧ ((s.point p).isDamper = true → m = .on → t.sts.demands[p] = { demand := .toOpen, source := .override })
                ∧ ((s.point p).isDamper = true → m = .off → t.sts.demands[p] = { demand := .toShut, source := .override })))
      ∧ ((16 ≤ group.toNat ∨ 2 < mode.toNat
            ∨ (∀ g : GroupId, group.toNat = g.val → (s.group g).owner ≠ some src.sender
                ∨ (src.sender = s.number ∧ src.origin = .received))) →
          ∀ k : GroupId, (t.group k).mode = (s.group k).mode ∧ (t.group k).lastHeard = (s.group k).lastHeard)

/-- A change of a peer's state reports the faults of presence last, with the time the peer was last heard: into ABSENT the onset of
STATION-ABSENT where the peer is in the configured set, into MISMATCHED that of CONFIG-MISMATCH, and first the clear of the fault
of the state left (R73, R179; the FLU last by log 5, a late onset on the way by log 51: the model's choices). VIEW from a peer
completes for presence (R71): digest, summary, last heard time and age are written, and the peer's state follows the digest, with
those faults; at its own number the PRM records nothing (R74). Heard in ISLAND, a VIEW of this station's digest ends it,
whichever of the PRM and the AGE takes it first: JOINING after island, with ISLAND cleared, the join wait of 2.0 s and the view
unsettled (R81, R92); one of another digest leaves the mode. -/
def Obligations.ViewUpdatesPresence : Prop :=
  (∀ (n : StationId) (new : Presence) (s : State),
    let old := (s.presence n).state
    let ended : List FaultKind :=
      if old = .mismatched then [.configMismatch]
      else if old = .absent ∧ has s.prm.configured n.val = true then [.stationAbsent]
      else []
    let begun : List FaultKind :=
      if new = .mismatched then [.configMismatch]
      else if new = .absent ∧ has s.prm.configured n.val = true then [.stationAbsent]
      else []
    (old = new → s.changePresence n new = s)
    ∧ (old ≠ new → new ≠ .unknown → ∃ u : State, (u.presence n).state = new ∧ u.flu.late = s.flu.late
        ∧ s.changePresence n new =
            u.handTogether (changeReports (byteOf n.val) (.station (s.presence n).lastHeard) ended begun) false))
  ∧ ∀ (src : Source) (order : TakeOrder) (epoch : Epoch) (flags origin scenario step : Byte) (digest : BitVec 16)
    (rest : List RxEntry) (s : State),
    FirstHanded s (.view epoch flags origin scenario step digest) src rest →
    ∃ t : State, Sys2Proof.Machine.exec (.view src order epoch flags origin scenario step digest) s = .next t
      ∧ t.bsc.handed = rest
      ∧ (src.sender ≠ s.number →
          t.presence src.sender =
            { state := if s.cfl.digest = some digest then .live else .mismatched
              age := some (10 * s.cfl.absence)
              lastHeard := some s.now
              summary := some { epoch := epoch, phase := flags.extractLsb' 6 2, escalated := flags.getLsbD 5,
                                established := flags.getLsbD 4, origin := origin, scenario := scenario, step := step,
                                mode := flags.extractLsb' 1 2, trouble := flags.getLsbD 3 }
              digest := some digest })
      ∧ (let old := (s.presence src.sender).state
          let subject := byteOf src.sender.val;
          src.sender ≠ s.number →
          (old = .absent → has s.prm.configured src.sender.val = true → s.severity .stationAbsent ≠ .masked →
            t.flu.holds .stationAbsent subject = false)
          ∧ (old = .mismatched → s.cfl.digest = some digest → s.severity .configMismatch ≠ .masked →
            t.flu.holds .configMismatch subject = false)
          ∧ (old ≠ .mismatched → s.cfl.digest ≠ some digest →
            OnsetStands s t .configMismatch subject (.station (some s.now))))
      ∧ (src.sender ≠ s.number → s.prm.mode = .island → s.cfl.digest = some digest →
          t.prm.mode = .joiningAfterIsland ∧ t.prm.joinWait = some 200 ∧ t.prm.solo = some (10 * s.cfl.absence)
            ∧ t.sts.viewSettled = false
            ∧ (s.severity .island ≠ .masked → t.flu.holds .island 255 = false))
      ∧ ((src.sender = s.number ∨ s.prm.mode ≠ .island ∨ s.cfl.digest ≠ some digest) → t.prm.mode = s.prm.mode)
      ∧ (src.sender = s.number → t = s.withBsc { s.bsc with handed := rest })

/-- VIEW completes for agreement (R43, R44, R51 to R56). Adopted, the view is the heard one, but for the steps that the station
then runs. RUNNING closes the claim window. At a new epoch it empties the subsequent-zone list, which takes the zones in alarm, by
decreasing rank (R40, R51); escalated, one epoch ahead of a RUNNING view not escalated, it keeps the list (R54); at the own epoch
with the own origin the other candidates join it (R53); and of two origins the heard one leaves it, the displaced one heads it,
the candidates join it where the station was GATHERING, and VIEW-DISPUTE is reported (R53, R54). At the own epoch a GATHERING
station makes the sweep last. No entry joins that is the origin, on the list, or a ninth (R39); a walk test that ends at the
adoption may hand further zones (R31, R44), so the list of a new epoch is stated where none runs or the view was not IDLE. A
dispute at one epoch begins the step state again at step 1 of the adopted scenario, whatever step was heard, with no row caught
up; in the joining hold, or while a LIVE station of the step's roster has not been heard, the station stands there, not
established, also where the heard view is (log 41: the model's choice); GATHERING opens the window at a new epoch, any other than
the own (at a difference of 32768 by log 38: the model's choice), and at the own epoch adds the heard candidate, in place of the
lowest-ranked of a full list, and leaves the window; IDLE empties the lists (in ISLAND a home zone in ALARM may begin the next
fire, R65). An equal RUNNING view of a higher step, or established, is caught up with: the steps passed over are complete. Any
other leaves the Scenario Record, and so does one discarded: of another digest, of a station in JOINING, or carrying no view (R42,
R43). -/
def Obligations.ViewIsTaken : Prop :=
  (∀ (src : Source) (order : TakeOrder) (epoch : Epoch) (flags origin scenario step : Byte) (digest : BitVec 16)
    (rest : List RxEntry) (s : State),
    FirstHanded s (.view epoch flags origin scenario step digest) src rest → src.sender ≠ s.number →
    (s.cfl.digest ≠ some digest ∨ flags.extractLsb' 1 2 = 0 ∨ s.heardView epoch flags origin scenario step = none) →
    ∃ t : State, Sys2Proof.Machine.exec (.view src order epoch flags origin scenario step digest) s = .next t
      ∧ t.bsc.handed = rest ∧ SameRecord s t ∧ t.age.escalationEpoch = s.age.escalationEpoch)
  ∧ ∀ (src : Source) (order : TakeOrder) (epoch : Epoch) (flags origin scenario step : Byte) (digest : BitVec 16) (v : View)
    (rest : List RxEntry) (s : State),
    FirstHanded s (.view epoch flags origin scenario step digest) src rest →
    src.sender ≠ s.number → s.cfl.digest = some digest → flags.extractLsb' 1 2 ≠ 0 →
    s.heardView epoch flags origin scenario step = some v →
    let catches : Prop := s.equalRank v s.age.view = true ∧ s.age.view.phase = .running ∧ v.scenario = s.age.view.scenario
      ∧ (s.age.view.step < v.step
        ∨ (v.step = s.age.view.step ∧ v.step.val = (s.sts.programs[v.scenario]).stepCount ∧ v.established = true
          ∧ s.age.view.established = false))
    ∃ t : State, Sys2Proof.Machine.exec (.view src order epoch flags origin scenario step digest) s = .next t
      ∧ t.bsc.handed = rest
      ∧ (s.adopts v = true → v.phase = .running →
          t.age.view.epoch = epoch ∧ t.age.view.phase = .running ∧ t.age.view.escalated = v.escalated
            ∧ t.age.view.origin = v.origin ∧ t.age.view.scenario = v.scenario ∧ t.age.void = false
            ∧ t.age.candidates = [] ∧ t.age.window = none
            ∧ (let own := s.age.view
                let goesOn : Prop := own.phase = .running ∧ own.escalated = false ∧ v.escalated = true ∧ epoch = own.epoch + 1
                let taken (before zones : List ZoneId) : List ZoneId := zones.foldl (fun list z =>
                  if v.origin = some z ∨ z ∈ list ∨ 8 ≤ list.length then list else list ++ [z]) before
                let displaced (d n : ZoneId) : List ZoneId := (d :: s.age.subsequent.filter fun z => z != n).take 8
                let swept : List ZoneId := if own.phase = .gathering then s.alarms else [];
                (¬goesOn → (s.age.void = true ∨ epoch ≠ own.epoch) → (s.liu.session = none ∨ own.phase ≠ .idle) →
                    t.age.subsequent = taken [] s.alarms)
                ∧ (goesOn → own.origin = v.origin → t.age.subsequent = s.age.subsequent)
                ∧ (∀ d n, goesOn → own.origin = some d → v.origin = some n → n ≠ d →
                    t.age.subsequent = displaced d n ∧ MomentaryRecorded s t .viewDispute (byteOf d.val) .none)
                ∧ (∀ d, s.age.void = false → epoch = own.epoch → own.phase ≠ .idle → own.origin = some d →
                    v.origin = some d → t.age.subsequent
                      = taken s.age.subsequent ((s.age.candidates.filter fun z => z != d) ++ swept))
                ∧ (∀ d n, s.age.void = false → epoch = own.epoch → own.phase ≠ .idle → own.origin = some d →
                    v.origin = some n → n ≠ d →
                    MomentaryRecorded s t .viewDispute (byteOf d.val) .none
                      ∧ t.age.subsequent = taken (displaced d n)
                          ((if own.phase = .gathering then s.age.candidates.filter fun z => z != d && z != n else []) ++ swept)))
            ∧ (∀ d, s.age.void = false → s.age.view.epoch = epoch → s.age.view.phase ≠ .idle → s.age.view.origin = some d →
                v.origin ≠ some d → t.age.subsequent.head? = some d
                  ∧ t.sts.phase = .running ∧ t.sts.epoch = epoch ∧ t.sts.scenario = v.scenario
                  ∧ (∀ k : StepId, (t.row k).completion ≠ .caughtUp)
                  ∧ ((s.sts.viewSettled = false
                        ∨ ∃ n : StationId, has ((s.sts.programs[v.scenario]).steps[rowOf 1]).roster n.val = true
                            ∧ (s.presence n).state = .live) →
                      t.sts.step = 1 ∧ t.sts.established = false ∧ t.age.view.step = 1 ∧ t.age.view.established = false
                        ∧ t.sts.stepTimer = some (10 * ((s.sts.programs[v.scenario]).steps[rowOf 1]).timeout)
                        ∧ ∀ k : StepId, t.row k = StepRow.empty)))
      ∧ (s.adopts v = true → v.phase = .gathering →
          t.age.view.epoch = epoch ∧ t.age.view.phase = .gathering ∧ t.age.view.escalated = false
            ∧ t.age.view.origin = v.origin ∧ t.age.void = false
            ∧ (∀ z, (s.age.void = true ∨ s.age.view.epoch ≠ epoch) → v.origin = some z →
                t.age.candidates = [z] ∧ t.age.subsequent = [] ∧ t.age.window = some (10 * s.cfl.claimWindow))
            ∧ (∀ z, s.age.void = false → s.age.view.epoch = epoch → s.age.candidates.length < 8 → v.origin = some z →
                t.age.candidates = (s.age.candidates.filter fun y => y != z) ++ [z]
                  ∧ t.age.subsequent = (s.age.subsequent.filter fun y => y != z) ∧ t.age.window = s.age.window)
            ∧ (∀ z low, s.age.void = false → s.age.view.epoch = epoch → s.age.candidates.length = 8 → v.origin = some z →
                low ∈ s.age.candidates → (∀ y ∈ s.age.candidates, y ≠ low → s.rank low < s.rank y) →
                t.age.candidates = (s.age.candidates.filter fun y => y != low && y != z) ++ [z] ∧ t.age.window = s.age.window
                  ∧ (low ≠ z → s.age.view.origin ≠ some low → low ∉ s.age.subsequent →
                      (s.age.subsequent.filter fun y => y != z).length < 8 →
                      t.age.subsequent = (s.age.subsequent.filter fun y => y != z) ++ [low])))
      ∧ (s.adopts v = true → v.phase = .idle → t.age.void = false
          ∧ ((t.age.view.phase = .idle ∧ t.age.view.epoch = epoch ∧ t.age.view.origin = none ∧ t.age.candidates = []
                ∧ t.age.subsequent = [] ∧ t.age.window = none)
            ∨ (s.prm.mode = .island ∧ s.age.view.phase ≠ .idle ∧ t.age.view.phase = .running
                ∧ t.age.view.epoch = epoch + 1 ∧ ∃ z, s.homeAlarms.head? = some z ∧ t.age.view.origin = some z))
          ∧ ((s.prm.mode ≠ .island ∨ s.homeAlarms = []) → t.age.view.phase = .idle))
      ∧ (s.adopts v = false → SameRecord s t ∧ t.age.escalationEpoch = s.age.escalationEpoch)
      ∧ (s.adopts v = false → catches → v.step ≤ t.age.view.step
          ∧ (v.established = true → t.age.view.established = true)
          ∧ (s.sts.phase = .running → s.sts.epoch = epoch → s.sts.scenario = v.scenario → 1 ≤ s.sts.step.val →
              s.sts.step < v.step → v.step ≤ t.sts.step
                ∧ ∀ k : StepId, s.sts.step ≤ k → k < v.step → (t.row k).completion ≠ .opened))

/-- STEP_DONE completes (R102): recorded in the row of its step where phase, epoch, scenario and step fit, the sender heard with
its outcome and no other sender changed; otherwise no row hears anyone. -/
def Obligations.StepDoneIsRecorded : Prop :=
  ∀ (src : Source) (order : TakeOrder) (epoch : Epoch) (scenario step outcome : Byte) (rest : List RxEntry) (s : State),
    FirstHanded s (.stepDone epoch scenario step outcome) src rest →
    let fits : Prop := s.sts.phase = .running ∧ epoch = s.sts.epoch ∧ scenario.toNat = s.sts.scenario.val
      ∧ 1 ≤ step.toNat ∧ step.toNat ≤ (s.sts.programs[s.sts.scenario]).stepCount ∧ step.toNat ≤ 8
    ∃ t : State, Sys2Proof.Machine.exec (.stepDone src order epoch scenario step outcome) s = .next t ∧ t.bsc.handed = rest
      ∧ (∀ k : Fin 8, fits → step.toNat = k.val + 1 →
          has (t.sts.rows[k]).heard src.sender.val = true
            ∧ has (t.sts.rows[k]).withFaults src.sender.val = (outcome != 0)
            ∧ ∀ n : StationId, n ≠ src.sender → has (t.sts.rows[k]).heard n.val = has (s.sts.rows[k]).heard n.val
                ∧ has (t.sts.rows[k]).withFaults n.val = has (s.sts.rows[k]).withFaults n.val)
      ∧ (∀ k : Fin 8, (¬fits ∨ step.toNat ≠ k.val + 1) →
          (t.sts.rows[k]).heard = (s.sts.rows[k]).heard ∧ (t.sts.rows[k]).withFaults = (s.sts.rows[k]).withFaults)

/-- SYNC_REQUEST and FAULT_NOTICE from a peer complete: the sender is noted by its last digest (R70, R84). A SYNC-REQUEST taken in
ON-LINE or ISLAND is answered with this station's VIEW, whatever the asker's state was, where the queue has room for what the
noting itself hands the bus (a LIVE asker of another digest, which leaves LIVE, may make more of it); in JOINING it is not
answered. At the own number neither does anything. A bulletin of any kind from a peer that the noting leaves LIVE, heard in
ISLAND, ends it, whichever block takes it first: JOINING after island, with ISLAND cleared and the join wait of 2.0 s (R81); one
that leaves the peer MISMATCHED does not. A peer that the noting brings out of ABSENT ends STATION-ABSENT where it is configured,
out of MISMATCHED it ends CONFIG-MISMATCH, and into MISMATCHED it begins CONFIG-MISMATCH, with the present time as the last heard
time (R70, R73, R179), a late onset staying on the way (log 51: the model's choice). Of these two kinds, that no other block
takes, the demands of the view are frozen and rule where no override does (R89, R91), and a SYNC-REQUEST is queued, where no
demand waits to be handed and the queue has room. -/
def Obligations.SenderIsNoted : Prop :=
  ∀ (src : Source) (rest : List RxEntry) (s : State),
    let peer : Prop := src.sender ≠ s.number
    let joins (t : State) : Prop :=
      (peer → s.prm.mode = .island → Matches s src.sender →
          t.prm.mode = .joiningAfterIsland ∧ t.prm.joinWait = some 200 ∧ t.sts.viewSettled = false
            ∧ (s.severity .island ≠ .masked → t.flu.holds .island 255 = false))
      ∧ ((¬peer ∨ s.prm.mode ≠ .island ∨ ¬Matches s src.sender) → t.prm.mode = s.prm.mode)
    let frozen (t : State) : Prop :=
      peer → s.prm.mode = .island → Matches s src.sender →
        t.sts.frozen = s.freeze.sts.frozen
        ∧ (∀ p : PointId, (s.point p).isUnused = false → s.groupMode p = .auto →
            t.sts.demands[p] = s.freeze.sts.frozen[p])
        ∧ (s.sts.viewSettled = true → (∀ p : PointId, s.sts.demands[p] = s.demandOf p) → s.bsc.queue.length ≤ 3 →
            Queued t .syncRequest)
    let noted (t : State) : Prop :=
      (t.presence src.sender).lastHeard = some s.now ∧ (t.presence src.sender).age = some (10 * s.cfl.absence)
        ∧ (t.presence src.sender).digest = (s.presence src.sender).digest
        ∧ (t.presence src.sender).summary = (s.presence src.sender).summary
        ∧ (Matches s src.sender → (t.presence src.sender).state = .live)
        ∧ (¬Matches s src.sender → (t.presence src.sender).state = .mismatched)
        ∧ ((s.presence src.sender).state = .absent → has s.prm.configured src.sender.val = true →
            s.severity .stationAbsent ≠ .masked → t.flu.holds .stationAbsent (byteOf src.sender.val) = false)
        ∧ ((s.presence src.sender).state = .mismatched → Matches s src.sender → s.severity .configMismatch ≠ .masked →
            t.flu.holds .configMismatch (byteOf src.sender.val) = false)
        ∧ ((s.presence src.sender).state ≠ .mismatched → ¬Matches s src.sender →
            OnsetStands s t .configMismatch (byteOf src.sender.val) (.station (some s.now)))
    (FirstHanded s .syncRequest src rest →
      ∃ t : State, Sys2Proof.Machine.exec (.syncRequest src) s = .next t ∧ t.bsc.handed = rest
        ∧ (src.sender = s.number → t = s.withBsc { s.bsc with handed := rest }) ∧ joins t ∧ frozen t
        ∧ (src.sender ≠ s.number → noted t
            ∧ ((s.prm.mode = .onLine ∨ s.prm.mode = .island) →
                ((s.presence src.sender).state ≠ .live ∨ Matches s src.sender) → s.bsc.queue.length ≤ 3 →
                Queued t t.viewBulletin)
            ∧ (s.prm.mode.joining = true → (s.presence src.sender).state = .live → Matches s src.sender →
                t.bsc.queue = s.bsc.queue)))
    ∧ (∀ kind subject edge, FirstHanded s (.faultNotice kind subject edge) src rest →
      ∃ t : State, Sys2Proof.Machine.exec (.faultNotice src kind subject edge) s = .next t ∧ t.bsc.handed = rest
        ∧ (src.sender = s.number → t = s.withBsc { s.bsc with handed := rest }) ∧ joins t ∧ frozen t
        ∧ (src.sender ≠ s.number → noted t ∧ t.age.candidates = s.age.candidates
            ∧ t.age.subsequent = s.age.subsequent ∧ t.age.view.epoch = s.age.view.epoch
            ∧ t.age.view.phase = s.age.view.phase))
    ∧ ∀ order : TakeOrder,
      (∀ epoch zone, FirstHanded s (.claim epoch zone) src rest →
        ∃ t : State, Sys2Proof.Machine.exec (.claim src order epoch zone) s = .next t ∧ joins t)
      ∧ (∀ epoch origin scenario, FirstHanded s (.escalate epoch origin scenario) src rest →
        ∃ t : State, Sys2Proof.Machine.exec (.escalate src order epoch origin scenario) s = .next t ∧ joins t)
      ∧ (∀ epoch, FirstHanded s (.standDown epoch) src rest →
        ∃ t : State, Sys2Proof.Machine.exec (.standDown src order epoch) s = .next t ∧ joins t)
      ∧ (∀ zone condition, FirstHanded s (.zoneReport zone condition) src rest →
        ∃ t : State, Sys2Proof.Machine.exec (.zoneReport src order zone condition) s = .next t ∧ joins t)
      ∧ (∀ group mode, FirstHanded s (.override group mode) src rest →
        ∃ t : State, Sys2Proof.Machine.exec (.override src order group mode) s = .next t ∧ joins t)
      ∧ (∀ epoch scenario step outcome, FirstHanded s (.stepDone epoch scenario step outcome) src rest →
        ∃ t : State, Sys2Proof.Machine.exec (.stepDone src order epoch scenario step outcome) s = .next t ∧ joins t)

/-! ## Expiries of the agreement, presence and step timers -/

/-- CLAIM_WINDOW_EXPIRY completes (R50): the highest-ranked candidate becomes the origin, the view runs with its scenario, the
other candidates and then the zones in alarm become subsequent zones, and the window is closed. -/
def Obligations.ClaimWindowCommits : Prop :=
  ∀ (z : ZoneId) (s : State), s.isActive = true → s.age.window = some 0 → z ∈ s.age.candidates →
    (∀ y ∈ s.age.candidates, y ≠ z → s.rank y < s.rank z) →
    ∃ t : State, Sys2Proof.Machine.exec .claimWindowExpiry s = .next t
      ∧ t.age.view.epoch = s.age.view.epoch ∧ t.age.view.phase = .running ∧ t.age.view.escalated = false
      ∧ t.age.view.origin = some z ∧ t.age.view.scenario = s.scenarioOf z
      ∧ t.age.candidates = [] ∧ t.age.window = none ∧ t.age.void = s.age.void
      ∧ t.age.subsequent =
          ((({ s.age with
            view := { s.age.view with phase := .running, origin := some z }
            candidates := [] } : Age).appendAll s.age.candidates).appendAll s.alarms).subsequent

/-- AGE_TIMER_EXPIRY of a peer completes (R72, R73): the peer is ABSENT with its age stopped and its other fields kept; its current
copies become STALE and its groups stale, with their conditions and modes kept; and no step waits for it. Last, where the peer was
MISMATCHED the clear of CONFIG-MISMATCH is reported, and then, where it is in the configured set, the onset of STATION-ABSENT, with
the time it was last heard (R73, R179; the FLU last by log 5, a late onset on the way by log 51: the model's choices). A peer
already ABSENT changes in its age alone. -/
def Obligations.AgeExpiryMarksAbsent : Prop :=
  ∀ (n : StationId) (s : State), n ≠ s.number → s.isActive = true → (s.presence n).age = some 0 →
    ∃ t : State, Sys2Proof.Machine.exec (.ageTimerExpiry n) s = .next t
      ∧ t.presence n = { s.presence n with state := .absent, age := none }
      ∧ (∀ z : ZoneId, (t.zone z).condition = (s.zone z).condition ∧ (t.zone z).lastReport = (s.zone z).lastReport)
      ∧ ((s.presence n).state ≠ .absent →
          (∀ (z : ZoneId) (x : ZoneConfig), (s.zone z).cfg = some x → x.home = n → (s.zone z).copy = .current →
            (t.zone z).copy = .stale)
          ∧ (∀ g : GroupId, (s.group g).owner = some n → (t.group g).stale = true ∧ (t.group g).mode = (s.group g).mode))
      ∧ ((s.presence n).state = .live → has t.sts.expected n.val = false)
      ∧ ((s.presence n).state = .absent → t = s.setPresence n { s.presence n with age := none })
      ∧ (let listed : Prop := has s.prm.configured n.val = true
          let last : Detail := .station (s.presence n).lastHeard;
          (s.presence n).state ≠ .absent →
          (∃ u : State, (u.presence n).state = .absent ∧ u.flu.late = s.flu.late
            ∧ t = u.handTogether (changeReports (byteOf n.val) last
                (if (s.presence n).state = .mismatched then [.configMismatch] else [])
                (if listed then [.stationAbsent] else [])) false)
          ∧ (listed → OnsetStands s t .stationAbsent (byteOf n.val) last)
          ∧ ((s.presence n).state = .mismatched → s.severity .configMismatch ≠ .masked →
              t.flu.holds .configMismatch (byteOf n.val) = false))

/-- JOIN_WAIT_EXPIRY completes (R63, R74, R78, R92): the station is ON-LINE, or at once ISLAND where LINK-STUCK is active or the
solo timer has expired with another station configured; the view is settled and void no more, and the own entry is LIVE.
SOLO_TIMER_EXPIRY completes (R79, R80): ON-LINE with another station configured, the station enters ISLAND; otherwise the timer
stops and nothing else changes. At each entry into ISLAND the onset of ISLAND is reported first, a late one staying on the way
(log 51: the model's choice), then the AGE takes the entry and the mode change is handed on (R64, R80, R82); after the join end
the home alarm notices follow (R63; log 6). -/
def Obligations.ModeTimersExpire : Prop :=
  (∀ s : State, s.prm.mode.joining = true → s.prm.joinWait = some 0 →
     ∃ t : State, Sys2Proof.Machine.exec .joinWaitExpiry s = .next t
       ∧ ((s.bsc.linkStuck = true
             ∨ (s.prm.solo = none ∧ ∃ n : StationId, n ≠ s.number ∧ has s.prm.configured n.val = true)) →
           t.prm.mode = .island ∧ ∃ u w x : State, u.prm.mode = .onLine ∧ u.age.void = false ∧ u.sts.viewSettled = true
             ∧ w = (u.setMode .island).onset .island 255 .none false ∧ OnsetStands s w .island 255 .none
             ∧ x = w.islandEntry.handMode .onLine ∧ t = x.takeNotices x.phaseNotices)
       ∧ (s.bsc.linkStuck = false →
           (s.prm.solo ≠ none ∨ ∀ n : StationId, n ≠ s.number → has s.prm.configured n.val = false) →
           t.prm.mode = .onLine)
       ∧ t.prm.joinWait = none ∧ t.age.void = false ∧ t.sts.viewSettled = true
       ∧ (t.presence s.number).state = .live ∧ (t.presence s.number).lastHeard = some s.now)
  ∧ (∀ s : State, s.isActive = true → s.prm.solo = some 0 →
       ∃ t : State, Sys2Proof.Machine.exec .soloTimerExpiry s = .next t ∧ t.prm.solo = none
         ∧ (s.prm.mode = .onLine → (∃ n : StationId, n ≠ s.number ∧ has s.prm.configured n.val = true) →
             t.prm.mode = .island ∧ ∃ w : State,
               w = ((s.withPrm { s.prm with solo := none }).setMode .island).onset .island 255 .none false
               ∧ OnsetStands s w .island 255 .none ∧ t = w.islandEntry.handMode .onLine)
         ∧ ((s.prm.mode ≠ .onLine ∨ ∀ n : StationId, n ≠ s.number → has s.prm.configured n.val = false) →
             t = s.withPrm { s.prm with solo := none }))

/-- VIEW_PERIOD_EXPIRY completes (R10, R47, R83, R153): the timer starts again with 1.0 s, a VIEW is queued, the rotations move
to the next home zone and the next own group, whose report and override are queued where the queue has room, and an ON-LINE
station renews its claim: with an IDLE view and a home zone in ALARM, that of the next epoch; with a GATHERING view, that of the
epoch for the highest-ranked home zone in ALARM that stands on neither list, where there is one; in RUNNING, in another mode, and
for no such zone no claim is queued. A rotation goes to the lowest number above its position
that qualifies, else to the lowest of all, and from none to the lowest. -/
def Obligations.ViewPeriodRotates : Prop :=
  (∀ (n : Nat) (position : Option (Fin n)) (test : Fin n → Bool),
    (rotate position test = none ↔ ∀ z, test z = false)
    ∧ ∀ z, rotate position test = some z ↔ test z = true
        ∧ (match position with
            | none => ∀ y, y < z → test y = false
            | some p => (p < z ∧ ∀ y, p < y → y < z → test y = false)
                ∨ ((∀ y, p < y → test y = false) ∧ ∀ y, y < z → test y = false)))
  ∧ ∀ s : State, s.isActive = true → s.prm.viewPeriod = some 0 →
    ∃ t : State, Sys2Proof.Machine.exec .viewPeriodExpiry s = .next t
      ∧ t.prm.viewPeriod = some 100 ∧ t.prm.mode = s.prm.mode
      ∧ ((∀ z : ZoneId, (s.zone z).copy ≠ .home) → t.ztu = s.ztu)
      ∧ (∀ z : ZoneId, rotate s.ztu.rotation s.isHome = some z →
          (s.zone z).copy = .home ∧ t.ztu.rotation = some z ∧ (t.zone z).lastReport = some s.now
            ∧ (s.bsc.queue.length ≤ 4 → Queued t (.zoneReport (byteOf z.val) (s.zone z).condition.code)))
      ∧ ((∀ g : GroupId, (s.group g).owner ≠ some s.number) → t.ovu = s.ovu)
      ∧ (∀ g : GroupId, rotate s.ovu.rotation s.ownsGroup = some g →
          (s.group g).owner = some s.number ∧ t.ovu.rotation = some g
            ∧ (s.bsc.queue.length ≤ 4 → Queued t (.override (byteOf g.val) (s.ovu.requested[g]).code)))
      ∧ (s.bsc.queue.length ≤ 4 → txHoldsView t.bsc.queue = true ∧ t.flu = s.flu)
      ∧ (s.bsc.queue.length ≤ 4 → s.prm.mode = .onLine → s.age.view.phase = .idle →
          ∀ z, s.homeAlarms.head? = some z → Queued t (.claim (s.age.view.epoch + 1) (byteOf z.val)))
      ∧ (let unlisted (z : ZoneId) : Prop := (s.zone z).copy = .home ∧ (s.zone z).condition = .alarm
            ∧ z ∉ s.age.candidates ∧ z ∉ s.age.subsequent;
          s.bsc.queue.length ≤ 4 →
          (∀ z, s.prm.mode = .onLine → s.age.view.phase = .gathering → unlisted z →
            (∀ y, unlisted y → y ≠ z → s.rank y < s.rank z) → Queued t (.claim s.age.view.epoch (byteOf z.val)))
          ∧ ((s.prm.mode ≠ .onLine ∨ s.age.view.phase = .running ∨ (s.age.view.phase = .idle ∧ s.homeAlarms = [])
                ∨ (s.age.view.phase = .gathering ∧ ∀ z, ¬unlisted z)) →
              ∀ e zone, Queued t (.claim e zone) → Queued s (.claim e zone)))
      ∧ t.liu = s.liu ∧ t.age = s.age ∧ t.sts = s.sts ∧ t.ptc = s.ptc ∧ t.pmu = s.pmu

/-- STEP_TIMER_EXPIRY completes (R105, R107): the current row is FORCED, the momentary fault STEP-FORCED is reported, subject the
step, with the scenario and the stations of the expected set not heard as its detail, the STEP-FORCED trace event is handed with
the number of these, and the next step starts, or the scenario is established at its last; a pending expiry is dropped with the
step (log 28: the model's inference); in the joining hold the expiry waits and nothing else changes. REPEAT_TIMER_EXPIRY completes
(R101): while the current step is open the STEP-DONE is queued again, its outcome judged anew, and the timer starts with 1.0 s;
otherwise the timer stops and nothing else changes. In the joining hold no STEP-DONE is queued (R107) and the timer goes on (log
39). -/
def Obligations.StepTimersExpire : Prop :=
  (∀ s : State, s.isActive = true → s.sts.stepTimer = some 0 →
     ∃ t : State, Sys2Proof.Machine.exec .stepTimerExpiry s = .next t
       ∧ (s.sts.viewSettled = false → t = s.withSts { s.sts with stepTimer := none, pendingExpiry := true })
       ∧ (s.sts.viewSettled = true →
           (t.row s.sts.step).completion = .forced
             ∧ (∃ (missing : StationSet) (u w : State),
                 (∀ n : StationId, has missing n.val =
                   (has s.sts.expected n.val && !has (s.row s.sts.step).heard n.val))
                 ∧ u = s.withSts { s.sts with
                     rows := put s.sts.rows (rowOf s.sts.step) { s.row s.sts.step with completion := .forced },
                     stepTimer := none, repeatTimer := none, pendingExpiry := false }
                 ∧ w = u.onset .stepForced (byteOf s.sts.step.val) (.step s.sts.scenario missing) true
                 ∧ t = (w.trace .stepForced (byteOf s.sts.step.val) (byteOf s.sts.scenario.val)
                     (byteOf (size missing))).advance
                 ∧ MomentaryRecorded s t .stepForced (byteOf s.sts.step.val) (.step s.sts.scenario missing)
                 ∧ (s.severity .stepForced = .trouble → s.flu.firstTrouble = none →
                     t.flu.firstTrouble = some (s.firstRecord .stepForced (byteOf s.sts.step.val)
                       (.step s.sts.scenario missing)))
                 ∧ (s.severity .stepForced = .critical → s.flu.firstCritical = none →
                     t.flu.firstCritical = some (s.firstRecord .stepForced (byteOf s.sts.step.val)
                       (.step s.sts.scenario missing))))
             ∧ ((s.sts.step.val < (s.sts.programs[s.sts.scenario]).stepCount ∧ s.sts.step.val < 8) →
                 s.sts.step.val < t.sts.step.val)
             ∧ (((s.sts.programs[s.sts.scenario]).stepCount ≤ s.sts.step.val ∨ s.sts.step.val = 8) →
                 t.sts.step = s.sts.step ∧ t.sts.established = true ∧ t.sts.stepTimer = none
                   ∧ t.sts.repeatTimer = none ∧ t.sts.expected = 0)))
  ∧ (∀ s : State, s.isActive = true → s.sts.repeatTimer = some 0 →
       ∃ t : State, Sys2Proof.Machine.exec .repeatTimerExpiry s = .next t
         ∧ ((s.sts.step = 0 ∨ (s.row s.sts.step).completion ≠ .opened) →
             t = s.withSts { s.sts with repeatTimer := none })
         ∧ (s.sts.step ≠ 0 → (s.row s.sts.step).completion = .opened → s.sts.viewSettled = false →
             t = s.withSts { s.sts with repeatTimer := some 100 })
         ∧ (s.sts.step ≠ 0 → (s.row s.sts.step).completion = .opened → s.sts.viewSettled = true →
             t.sts = { s.sts with repeatTimer := some 100 }
               ∧ t = ((s.withSts t.sts).withBsc t.bsc).withFlu t.flu
               ∧ (s.bsc.queue.length < 8 →
                   Queued t (.stepDone s.sts.epoch (byteOf s.sts.scenario.val) (byteOf s.sts.step.val)
                     (if (s.pointsOf s.sts.step).any (fun p => failed (s.sts.reports[p])) then 1 else 0)))))

/-- A step starts (R98): the record, with the rostered stations LIVE now as its expected set, the step in a view of its epoch
and scenario (R57), STEP-STARTED traced, demand recomputed; it waits while an expected station has not been heard. The barrier
test (R103) passes where the step is open and every expected station has been heard, outside the joining hold (R107): BARRIER,
and the next step starts or the scenario is established. The own settlement test (R100) passes where this station is in the
roster and every point of the step is settled (R99): STEP-DONE is queued and the repeat timer started. Neither changes anything
where it fails. The tests of the STS follow in the order of log 7. A view change that alters the epoch or the scenario, or is a
restart (R96), an IDLE view at another epoch among them, which R97's closing sentence would leave out of it (log 47: the model's
inference), empties every row and rebuilds the step state: RUNNING, the rows below its step are CAUGHT-UP and its step starts,
and only then the stand-down order is cleared and demand recomputed; established, every row to the step count is CAUGHT-UP and no
step runs; else the current step is 0. For a RUNNING view not established, where R96 names the field for the other views alone,
established becomes no (log 37), and an expiry pending from the joining hold is dropped with the step it was for, at a step start,
at a rebuild and where the scenario becomes established (log 28): the model's inferences. -/
def Obligations.StepsStartAndComplete : Prop :=
  (∀ (s : State) (k : StepId), k ≠ 0 →
    let b := s.beginStep k
    let roster := ((s.sts.programs[s.sts.scenario]).steps[rowOf k]).roster
    b.sts.step = k ∧ b.sts.stepTimer = some (10 * ((s.sts.programs[s.sts.scenario]).steps[rowOf k]).timeout)
      ∧ b.sts.ownSettled = false ∧ b.sts.repeatTimer = none ∧ b.sts.rows = s.sts.rows
      ∧ (∀ n : StationId, has b.sts.expected n.val = (has roster n.val && decide ((s.presence n).state = .live)))
      ∧ (s.age.view.phase = .running → s.age.view.epoch = s.sts.epoch → s.age.view.scenario = s.sts.scenario →
          b.age.view = { s.age.view with step := k })
      ∧ ((s.age.view.phase ≠ .running ∨ s.age.view.epoch ≠ s.sts.epoch ∨ s.age.view.scenario ≠ s.sts.scenario) →
          b.age = s.age)
      ∧ (∃ u : State, b = (u.trace .stepStarted (byteOf k.val) (byteOf s.sts.scenario.val)
          (byteOf (size b.sts.expected))).writeDemands)
      ∧ ((s.sts.viewSettled = false ∨ s.sts.phase ≠ .running ∨ (s.row k).completion ≠ .opened
            ∨ ∃ n : StationId, has b.sts.expected n.val = true ∧ has (s.row k).heard n.val = false) →
          s.startStep k = b.closingTests)
      ∧ (s.sts.viewSettled = true → s.sts.phase = .running → (s.row k).completion = .opened →
          (∀ n : StationId, has b.sts.expected n.val = true → has (s.row k).heard n.val = true) →
          ((s.startStep k).row k).completion = .barrier))
  ∧ (∀ s : State,
    let open_ : Prop := s.sts.viewSettled = true ∧ s.sts.phase = .running ∧ s.sts.step ≠ 0
      ∧ (s.row s.sts.step).completion = .opened
      ∧ ∀ n : StationId, has s.sts.expected n.val = true → has (s.row s.sts.step).heard n.val = true
    let last : Prop := (s.sts.programs[s.sts.scenario]).stepCount ≤ s.sts.step.val ∨ s.sts.step.val = 8
    (¬open_ → s.barrierTest = s)
    ∧ (open_ → (s.barrierTest.row s.sts.step).completion = .barrier
        ∧ (¬last → s.sts.step < s.barrierTest.sts.step)
        ∧ (last → s.barrierTest.sts = { s.sts with
            rows := s.barrierTest.sts.rows, stepTimer := none, repeatTimer := none, expected := 0, established := true,
            pendingExpiry := false })))
  ∧ (∀ s : State,
    let settledPoint (p : PointId) : Prop :=
      (s.sts.demands[p]).source = .override
        ∨ ∃ r, s.sts.reports[p] = some r
          ∧ ((r.state = .damper .isOpen ∧ (s.sts.demands[p]).demand = .toOpen)
            ∨ (r.state = .damper .isShut ∧ (s.sts.demands[p]).demand = .toShut)
            ∨ r.state = .damper .jammed ∨ r.state = .damper .limitConflict
            ∨ (r.state = .fan .running ∧ (s.sts.demands[p]).demand = .run)
            ∨ (r.state = .fan .stopped ∧ (s.sts.demands[p]).demand = .stop)
            ∨ r.state = .fan .tripped ∨ (r.state = .fan .noFlow ∧ r.attemptsRemain = false))
    let failedPoint (p : PointId) : Prop :=
      ∃ r, s.sts.reports[p] = some r
        ∧ (r.state = .damper .jammed ∨ r.state = .damper .limitConflict ∨ r.state = .fan .tripped
          ∨ (r.state = .fan .noFlow ∧ r.attemptsRemain = false))
    let ofStep (p : PointId) : Prop :=
      ((s.sts.points[p]).scenarios[s.sts.scenario]).action ≠ .leave
        ∧ ((s.sts.points[p]).scenarios[s.sts.scenario]).step = s.sts.step
    let passes : Prop := s.sts.phase = .running ∧ s.sts.step ≠ 0 ∧ s.sts.established = false ∧ s.sts.viewSettled = true
      ∧ has ((s.sts.programs[s.sts.scenario]).steps[rowOf s.sts.step]).roster s.number.val = true
      ∧ s.sts.ownSettled = false ∧ ∀ p, ofStep p → settledPoint p
    (¬passes → s.settlementTest = s)
    ∧ (passes → s.settlementTest.sts = { s.sts with ownSettled := true, repeatTimer := some 100 }
        ∧ (s.isActive = true → s.bsc.queue.length < 8 →
            ((∃ p, ofStep p ∧ failedPoint p) → Queued s.settlementTest
              (.stepDone s.sts.epoch (byteOf s.sts.scenario.val) (byteOf s.sts.step.val) 1))
            ∧ ((∀ p, ofStep p → ¬failedPoint p) → Queued s.settlementTest
              (.stepDone s.sts.epoch (byteOf s.sts.scenario.val) (byteOf s.sts.step.val) 0)))))
  ∧ ∀ (s : State) (restart : Bool),
    let v := s.age.view
    let t := s.takeView restart
    let entered (u : State) (last : Nat) : Prop :=
      u.sts.epoch = v.epoch ∧ u.sts.scenario = v.scenario ∧ u.sts.phase = v.phase
        ∧ ∀ k : Fin 8, u.sts.rows[k]
            = { heard := 0, withFaults := 0, completion := if k.val + 1 ≤ last then .caughtUp else .opened }
    let rests : Prop := t.sts.stepTimer = none ∧ t.sts.repeatTimer = none ∧ t.sts.expected = 0
    (restart = true ∨ v.epoch ≠ s.sts.epoch ∨ v.scenario ≠ s.sts.scenario) →
    (v.phase = .running → v.established = false → ∃ u : State,
        entered u (v.step.val - 1)
        ∧ u = (s.withSts { s.sts with
            rows := u.sts.rows, epoch := v.epoch, scenario := v.scenario, phase := .running, pendingExpiry := false,
            established := false, stepTimer := none, repeatTimer := none, expected := 0 }).withFlu
          { s.flu with trace := u.flu.trace, writePos := u.flu.writePos, nextSerial := u.flu.nextSerial }
        ∧ t = ((u.startStep v.step).withSts { (u.startStep v.step).sts with standDownPending := false }).recompute)
    ∧ (v.phase = .running → v.established = true →
        entered t (s.sts.programs[v.scenario]).stepCount ∧ rests ∧ t.sts.step = v.step ∧ t.sts.established = true)
    ∧ (v.phase ≠ .running →
        entered t 0 ∧ rests ∧ t.sts.step = 0 ∧ t.sts.ownSettled = false ∧ t.sts.established = false)

/-- The stand-down order (R93). A view change into a fire phase clears the flag; one into IDLE out of a fire sets it, and it stays
set while a fan that is to stop still runs down; with no fan it passes at once. The test passes exactly where the last report of
every fan is STOPPED under a normal STOP or REST, RUNNING or QUEUED under a normal RUN, NO-FLOW or TRIPPED, or its demand is an
override; passed, the flag clears and demand is recomputed, else nothing changes. It is made at each report of a fan as the STS
takes it, after the report is kept and the own settlement test made (R100; log 7), and not at a damper's. -/
def Obligations.StandDownOrder : Prop :=
  (∀ s : State,
    s.stoodDown = true ↔ ∀ (p : PointId) (r : PointReport) (x : FanState), s.sts.reports[p] = some r → r.state = .fan x →
      (s.sts.demands[p]).source = .override
        ∨ (x = .stopped ∧ (s.sts.points[p]).normal ≠ .give .run)
        ∨ ((x = .running ∨ x = .queued) ∧ (s.sts.points[p]).normal = .give .run)
        ∨ x = .noFlow ∨ x = .tripped)
  ∧ (∀ s : State,
    ((s.sts.standDownPending = false ∨ s.stoodDown = false) → s.standDownTest = s)
    ∧ (s.sts.standDownPending = true → s.stoodDown = true → s.standDownTest.sts.standDownPending = false
        ∧ s.standDownTest = (s.withSts { s.sts with standDownPending := false }).writeDemands.settlementTest))
  ∧ (∀ (s : State) (p : PointId) (r : PointReport),
    let kept : State := s.withSts { s.sts with reports := put s.sts.reports p (some r) }
    (∀ x, r.state = .fan x → s.takeReport { point := p, report := r } = kept.settlementTest.standDownTest)
    ∧ (∀ x, r.state = .damper x → s.takeReport { point := p, report := r } = kept.settlementTest))
  ∧ ∀ (s : State) (restart : Bool), ReportsInOrder s → s.isActive = true → s.sts.viewSettled = true →
    let t := s.takeView restart
    (s.age.view.phase ≠ .idle → t.sts.standDownPending = false)
    ∧ (s.age.view.phase = .idle → s.sts.phase = .idle → s.sts.standDownPending = false → t.sts.standDownPending = false)
    ∧ (s.age.view.phase = .idle → s.sts.phase ≠ .idle → (∀ p : PointId, (s.point p).isFan = false) →
        t.sts.standDownPending = false)
    ∧ (∀ (p : PointId) (f : Fan), s.age.view.phase = .idle → s.sts.phase ≠ .idle → s.point p = .fan f →
        ((f.state = .running ∧ f.demand = .run ∧ (s.sts.demands[p]).demand = .run) ∨ f.state = .stopping) →
        (∀ g, (s.sts.points[p]).group = some g → (s.group g).mode = .auto) →
        ((s.sts.points[p]).normal = .give .stop ∨ (s.sts.points[p]).normal = .give .rest) →
        t.sts.standDownPending = true
          ∧ ∀ (q : PointId) (d : Damper), s.point q = .damper d →
              (∀ g, (s.sts.points[q]).group = some g → (s.group g).mode = .auto) →
              t.sts.demands[q] = { demand := (s.sts.demands[q]).demand, source := .standDownHold })

/-! ## Points -/

/-- LIMIT_EVENT and TRAVEL_TIMER_EXPIRY of a damper complete: the filtered limit takes the level held (R111), and the damper
arrives (R115, R116), loses its proof (R118), enters or leaves LIMIT-CONFLICT (R117), lies where its limits show it under REST
(R119), or is JAMMED (R116); its drive and demand stay (R112). The fans whose interlock set names it then take its change (R138):
leaving OPEN it joins their unmet sets and breaks the interlock of a STARTING or RUNNING one (R141), entering OPEN it leaves them;
and the grant test follows where a fan left STARTING or a QUEUED one has become eligible (R139). DAMPER-JAMMED, -LIMITS and
-PROOF-LOST are reported before the fans take the change, with the new state and the demand as detail (R115 to R121), in this
order, a late onset staying on the way and the grant's report with it (R177; log 5, log 35, log 51: the model's choices). The STS
takes the reports last (log 7); leaving LIMIT-CONFLICT keeps the proof-lost flag (log 22). -/
def Obligations.DamperTakesLimitsAndExpiry : Prop :=
  ∀ (p : PointId) (d : Damper) (s : State), s.isActive = true → s.point p = .damper d →
    (∀ i : LimitInput, d.settleOf i = some 0 →
      let e : Damper :=
        match i with
        | .inputA => { d with limitA := otherLevel d.limitA, settleA := none }
        | .inputB => { d with limitB := otherLevel d.limitB, settleB := none }
      let target : Bool := d.demand == .toOpen || d.demand == .toShut
      let bothMade : Bool := e.limitA == .made && e.limitB == .made
      let demanded : LimitInput := if d.demand = .toShut then .inputB else .inputA
      let demandedLevel : Level := if d.demand = .toShut then e.limitB else e.limitA
      let goal : DamperState := if d.demand = .toShut then .isShut else .isOpen
      let way : DamperState := if d.demand = .toShut then .shutting else .opening
      let jam : List FaultKind := if d.state = .jammed then [.damperJammed] else []
      let proof : List FaultKind := if d.proofLost = true then [.damperProofLost] else []
      ∃ t u w : State, Sys2Proof.Machine.exec (.limitEvent p i) s = .next t ∧ t = u.takeReports
        ∧ (let faults := HandsFaults s w (byteOf p.val) (w.point p).detail
            let conflict : Prop := d.state = .limitConflict
            let arrives : Prop := target = true ∧ bothMade = false ∧ i = demanded ∧ demandedLevel = .made
              ∧ (d.state = .opening ∨ d.state = .shutting ∨ d.state = .jammed)
            let slips : Prop := target = true ∧ ¬conflict ∧ bothMade = false ∧ i = demanded ∧ demandedLevel = .broken
              ∧ (d.state = .isOpen ∨ d.state = .isShut)
            (target = true → ¬conflict → bothMade = true → faults jam [.damperLimits])
            ∧ (arrives → faults (jam ++ proof) [])
            ∧ (slips → faults [] (if d.proofLost = true then [] else [.damperProofLost]))
            ∧ (conflict → bothMade = false → faults [.damperLimits] [])
            ∧ (target = false → ¬conflict → bothMade = true → faults [] [.damperLimits])
            ∧ (conflict → bothMade = true → faults [] [])
            ∧ (¬conflict → bothMade = false → ¬arrives → ¬slips → faults [] []))
        ∧ (∀ q : PointId, q ≠ p → (s.point q).isDamper = true → w.point q = s.point q)
        ∧ (target = true → d.state ≠ .limitConflict → bothMade = true →
            w.point p = .damper { e with state := .limitConflict, travel := none })
        ∧ (target = true → bothMade = false → i = demanded → demandedLevel = .made →
            (d.state = .opening ∨ d.state = .shutting ∨ d.state = .jammed) →
            w.point p = .damper { e with state := goal, travel := none, proofLost := false })
        ∧ (target = true → i = demanded → demandedLevel = .broken → (d.state = .isOpen ∨ d.state = .isShut) →
            w.point p = .damper { e with state := way, travel := some (10 * d.travelLimit), proofLost := true })
        ∧ (target = true → bothMade = false → i ≠ demanded → d.state ≠ .limitConflict → w.point p = .damper e)
        ∧ (target = true → d.state = .limitConflict → bothMade = false → demandedLevel = .made →
            w.point p = .damper { e with state := goal, travel := none })
        ∧ (target = true → d.state = .limitConflict → bothMade = false → demandedLevel = .broken →
            w.point p = .damper { e with state := way, travel := some (10 * d.travelLimit) })
        ∧ (target = false → ∃ x, w.point p = .damper { e with state := x }
            ∧ (e.limitA = .made → e.limitB = .broken → x = .isOpen)
            ∧ (e.limitA = .broken → e.limitB = .made → x = .isShut)
            ∧ (e.limitA = .broken → e.limitB = .broken → x = .mid)
            ∧ (e.limitA = .made → e.limitB = .made → x = .limitConflict))
        ∧ (∀ (q : PointId) (f : Fan), s.point q = .fan f →
            (isOpenDamper (w.point p) = decide (d.state = .isOpen) ∨ has f.interlock p.val = false →
              w.point q = .fan f)
            ∧ (d.state = .isOpen → isOpenDamper (w.point p) = false → has f.interlock p.val = true →
                ((f.state = .starting ∨ f.state = .running) →
                  w.point q = .fan { f with unmet := insert f.unmet p.val, state := .stopping, drive := false,
                                            prove := none, flow := none, run := some (max 1 (10 * f.runDown)) })
                ∧ (f.state ≠ .starting → f.state ≠ .running →
                  w.point q = .fan { f with unmet := insert f.unmet p.val }))
            ∧ (d.state ≠ .isOpen → isOpenDamper (w.point p) = true → has f.interlock p.val = true →
                w.point q = .fan { f with unmet := remove f.unmet p.val }))
        ∧ w.ptc.startQueue = s.ptc.startQueue ∧ w.ptc.gap = s.ptc.gap ∧ w.pmu = s.pmu
        ∧ (let frees : Prop := d.state = .isOpen ∧ isOpenDamper (w.point p) = false
              ∧ ∃ q f, s.point q = .fan f ∧ has f.interlock p.val = true ∧ f.state = .starting
            let opens : Prop := d.state ≠ .isOpen ∧ isOpenDamper (w.point p) = true
              ∧ ∃ q f, s.point q = .fan f ∧ has f.interlock p.val = true ∧ f.state = .queued ∧ f.unmet ≠ 0
                ∧ remove f.unmet p.val = 0
            let slips : Bool := target && !bothMade && i == demanded && demandedLevel == .broken
              && (d.state == .isOpen || d.state == .isShut)
            let begun : List FaultKind :=
              if d.state ≠ .limitConflict ∧ bothMade = true then [.damperLimits]
              else if slips = true ∧ d.proofLost = false then [.damperProofLost]
              else []
            ((frees ∨ opens) → u = w.grantTest (begun.any fun k => s.flu.isLate k (byteOf p.val)))
              ∧ (¬(frees ∨ opens) → u = w)))
    ∧ (d.travel = some 0 →
      ∃ t u : State, Sys2Proof.Machine.exec (.travelTimerExpiry p) s = .next t ∧ t = u.takeReports
        ∧ HandsFaults s u (byteOf p.val) (u.point p).detail []
            (if d.state = .opening ∨ d.state = .shutting then [.damperJammed] else [])
        ∧ (∀ q : PointId, q ≠ p → u.point q = s.point q)
        ∧ ((d.state = .opening ∨ d.state = .shutting) →
            u.point p = .damper { d with state := .jammed, travel := none })
        ∧ ((d.state ≠ .opening ∧ d.state ≠ .shutting) → u.point p = .damper { d with travel := none }))

/-- What a point does with a demand change, and the recompute that hands them (R90). A damper judges a target afresh from its
limits (R114) and lies under REST where they show it (R119), its drive following the demand (R112). A fan takes RUN into QUEUED
from STOPPED, with its attempts in full (R129), and a stop demand out of QUEUED, STARTING, RUNNING and NO-FLOW, with its flow
faults ended (R130); between STOP and REST the demand alone changes. The grant test follows where a fan joins the Start Queue or
leaves STARTING (R139), and an UNUSED point takes nothing. The faults that the change ends or begins are reported before the grant
test: a damper's by its new state, a fan's FAN-NO-FLOW and FAN-FLOW-LOST at a stop demand, and the grant's report waits behind a
late onset (R177; log 35, log 51: the model's choices). The Demand Table takes what R89 gives each point, and a demand that stays
is handed to no point. A run-down of 0 takes one tick (log 32). -/
def Obligations.PointTakesDemand : Prop :=
  (∀ (p : PointId) (d : Damper) (demand : Demand) (s : State), s.point p = .damper d →
    let t := s.takeDemand p demand
    let e : Damper := { d with demand := demand, drive := damperDrive d.energiseToShut demand, proofLost := false }
    let demandedLevel : Level := if demand = .toShut then d.limitB else d.limitA
    let otherMade : Bool := if demand = .toShut then d.limitA == .made else d.limitB == .made
    let ended (conflict : Bool) : List FaultKind :=
      (if d.proofLost = true then [.damperProofLost] else []) ++ (if d.state = .jammed then [.damperJammed] else [])
        ++ (if d.state = .limitConflict ∧ conflict = false then [.damperLimits] else [])
    let begun (conflict : Bool) : List FaultKind :=
      if d.state ≠ .limitConflict ∧ conflict = true then [.damperLimits] else []
    (∀ q : PointId, q ≠ p → (s.point q).isDamper = true → t.point q = s.point q)
    ∧ (demand = d.demand → t = s)
    ∧ (demand ≠ d.demand → (demand = .toOpen ∨ demand = .toShut ∨ demand = .rest) →
        ∃ w : State, w.point p = t.point p
          ∧ (t = w ∨ t = w.grantTest ((begun (d.limitA == .made && d.limitB == .made)).any fun k =>
              s.flu.isLate k (byteOf p.val)))
          ∧ HandsFaults s w (byteOf p.val) (w.point p).detail
              (ended (d.limitA == .made && d.limitB == .made)) (begun (d.limitA == .made && d.limitB == .made)))
    ∧ (demand ≠ d.demand → (demand = .toOpen ∨ demand = .toShut) →
        (demandedLevel = .made → otherMade = false →
          t.point p = .damper { e with state := if demand = .toShut then .isShut else .isOpen, travel := none })
        ∧ (demandedLevel = .made → otherMade = true → t.point p = .damper { e with state := .limitConflict, travel := none })
        ∧ (demandedLevel = .broken →
          t.point p = .damper { e with state := if demand = .toShut then .shutting else .opening,
                                       travel := some (10 * d.travelLimit) }))
    ∧ (demand ≠ d.demand → demand = .rest → ∃ x, t.point p = .damper { e with state := x, travel := none }
        ∧ (d.limitA = .made → d.limitB = .broken → x = .isOpen)
        ∧ (d.limitA = .broken → d.limitB = .made → x = .isShut)
        ∧ (d.limitA = .broken → d.limitB = .broken → x = .mid)
        ∧ (d.limitA = .made → d.limitB = .made → x = .limitConflict)))
  ∧ (∀ (p : PointId) (f : Fan) (demand : Demand) (s : State), s.point p = .fan f →
    let stop (x : Demand) : Prop := x = .stop ∨ x = .rest
    let ended : Fan := { f with demand := demand, noFlow := false, flowLost := false }
    let watch : Timer := if (s.measure p).proven then some 3000 else none
    ∃ u : State, s.takeDemand p demand = (if f.state = .starting ∧ stop demand ∧ ¬stop f.demand
          ∨ f.state = .stopped ∧ ¬stop demand then u.grantTest else u)
      ∧ (∀ q : PointId, q ≠ p → u.point q = s.point q) ∧ u.ptc.gap = s.ptc.gap ∧ u.pmu = s.pmu
      ∧ HandsFaults s u (byteOf p.val) (u.point p).detail
          (if stop demand ∧ ¬stop f.demand then (if f.noFlow = true then [.fanNoFlow] else [])
            ++ (if f.flowLost = true then [.fanFlowLost] else []) else []) []
      ∧ (demand = .run → f.state = .stopped →
          u.point p = .fan { f with demand := .run, attempts := f.restarts, state := .queued, drive := false, run := none,
                                    uncommandedTimer := none }
            ∧ u.ptc.startQueue = s.ptc.startQueue ++ [p])
      ∧ (demand = .run → (f.state = .stopping ∨ f.state = .tripped) →
          u.point p = .fan { f with demand := .run, attempts := f.restarts } ∧ u.ptc.startQueue = s.ptc.startQueue)
      ∧ (stop demand → stop f.demand → u.point p = .fan { f with demand := demand }
          ∧ u.ptc.startQueue = s.ptc.startQueue)
      ∧ (stop demand → f.demand = .run → f.state = .queued →
          u.point p = .fan { ended with state := .stopped, drive := false, uncommandedTimer := watch }
            ∧ p ∉ u.ptc.startQueue)
      ∧ (stop demand → f.demand = .run → (f.state = .starting ∨ f.state = .running) →
          u.point p = .fan { ended with state := .stopping, drive := false, prove := none, flow := none,
                                        run := some (max 1 (10 * f.runDown)) })
      ∧ (stop demand → f.demand = .run → f.state = .noFlow →
          u.point p = .fan { ended with state := .stopped, drive := false, run := none, attempts := f.restarts,
                                        uncommandedTimer := watch })
      ∧ (stop demand → f.demand = .run → (f.state = .stopping ∨ f.state = .tripped) → u.point p = .fan ended))
  ∧ (∀ (p : PointId) (u : UnusedPoint) (demand : Demand) (s : State), s.point p = .unused u → s.takeDemand p demand = s)
  ∧ (∀ s : State, (∀ p : PointId, s.writeDemands.sts.demands[p] = s.demandOf p)
    ∧ ∀ t : State, t = s.withSts { s.sts with demands := Vector.ofFn s.demandOf } →
        ((∀ p : PointId, (s.demandOf p).demand = (s.sts.demands[p]).demand) → s.writeDemands = t)
        ∧ ∀ p : PointId, (s.demandOf p).demand ≠ (s.sts.demands[p]).demand →
            (∀ q : PointId, q ≠ p → (s.demandOf q).demand = (s.sts.demands[q]).demand) →
            s.writeDemands = t.takeDemand p (s.demandOf p).demand)

/-- TRIP_EVENT and TRIP_CLEAR of a fan complete (R126, R135): the filtered input B takes the level held; an active trip level
takes the fan to TRIPPED from any state with its drive off and its timers stopped, an inactive one to STOPPING with its full
run-down; the onset and the clear of FAN-TRIP are reported (log 35, log 51: the model's choices); the grant test follows where the
fan leaves STARTING (R139), its report behind a late FAN-TRIP (R177; log 51), and the STS takes the reports last (R93, R100; log
7). A run-down of 0 takes one tick (log 32). -/
def Obligations.FanTripsAndClears : Prop :=
  ∀ (p : PointId) (f : Fan) (s : State), s.isActive = true → s.point p = .fan f → f.settleB = some 0 →
    let level := otherLevel f.inputB
    let active : Bool := if level = .made then f.tripWhenMade else !f.tripWhenMade
    (active = true → ∃ t u : State, Sys2Proof.Machine.exec (.tripEvent p) s = .next t
      ∧ t = (if f.state = .starting then u.grantTest (s.flu.isLate .fanTrip (byteOf p.val)) else u).takeReports
      ∧ HandsFaults s u (byteOf p.val) (u.point p).detail [] [.fanTrip]
      ∧ (∀ q : PointId, q ≠ p → u.point q = s.point q)
      ∧ u.point p = .fan { f with inputB := level, settleB := none, state := .tripped, drive := false, prove := none,
                                  flow := none, run := none, uncommandedTimer := none }
      ∧ (f.state = .queued → p ∉ u.ptc.startQueue))
    ∧ (active = false → ∃ t u : State, Sys2Proof.Machine.exec (.tripClear p) s = .next t
      ∧ t = (if f.state = .starting then u.grantTest else u).takeReports
      ∧ HandsFaults s u (byteOf p.val) (u.point p).detail [.fanTrip] []
      ∧ (∀ q : PointId, q ≠ p → u.point q = s.point q)
      ∧ u.point p = .fan { f with inputB := level, settleB := none, state := .stopping, drive := false, prove := none,
                                  flow := none, run := some (max 1 (10 * f.runDown)) })

/-- PROVE_TIMER_EXPIRY in STARTING, FLOW_LOSS_TIMER_EXPIRY in RUNNING, RUN_DOWN_EXPIRY and UNCOMMANDED_TIMER_EXPIRY of a fan
complete (R127, R132, R133, R136, R137): NO-FLOW with the drive off and the run-down started; after the run-down, STOPPED under
a stop demand and QUEUED under RUN; NO-FLOW retries while attempts remain, and stays with none; flow with the drive off for the
whole timer is uncommanded. FAN-NO-FLOW and FAN-FLOW-LOST are reported where not already active for the point, and
FAN-UNCOMMANDED, with the new state as detail (log 35, log 51: the model's choices). The grant test follows where the fan leaves
STARTING or joins the queue (R139), its report behind a late FAN-NO-FLOW (R177; log 51), and the STS takes the reports last (R93,
R100; log 7). A run-down of 0 takes one tick (log
32). -/
def Obligations.FanTimersExpire : Prop :=
  (∀ (p : PointId) (f : Fan) (s : State), s.isActive = true → s.point p = .fan f →
     (f.state = .starting → f.prove = some 0 → ∃ t u : State, Sys2Proof.Machine.exec (.proveTimerExpiry p) s = .next t
       ∧ t = (u.grantTest (!f.noFlow && s.flu.isLate .fanNoFlow (byteOf p.val))).takeReports
       ∧ (∀ q : PointId, q ≠ p → u.point q = s.point q)
       ∧ HandsFaults s u (byteOf p.val) (u.point p).detail [] (if f.noFlow = true then [] else [.fanNoFlow])
       ∧ u.point p = .fan { f with state := .noFlow, drive := false, prove := none,
                                   run := some (max 1 (10 * f.runDown)), noFlow := true })
     ∧ (f.state = .running → f.flow = some 0 → ∃ t u : State, Sys2Proof.Machine.exec (.flowLossTimerExpiry p) s = .next t
       ∧ t = u.takeReports ∧ (∀ q : PointId, q ≠ p → u.point q = s.point q)
       ∧ HandsFaults s u (byteOf p.val) (u.point p).detail [] (if f.flowLost = true then [] else [.fanFlowLost])
       ∧ u.point p = .fan { f with state := .noFlow, drive := false, flow := none,
                                   run := some (max 1 (10 * f.runDown)), flowLost := true }))
  ∧ (∀ (p : PointId) (f : Fan) (s : State), s.isActive = true → s.point p = .fan f →
       (f.run = some 0 → f.state = .stopping → (f.demand = .stop ∨ f.demand = .rest) →
         ∃ t u : State, Sys2Proof.Machine.exec (.runDownExpiry p) s = .next t ∧ t = u.takeReports
           ∧ (∀ q : PointId, q ≠ p → u.point q = s.point q)
           ∧ u.point p = .fan { f with state := .stopped, drive := false, run := none,
                                       uncommandedTimer := if (s.measure p).proven then some 3000 else none })
       ∧ (f.run = some 0 → f.state = .stopping → f.demand = .run →
         ∃ t u : State, Sys2Proof.Machine.exec (.runDownExpiry p) s = .next t ∧ t = u.grantTest.takeReports
           ∧ (∀ q : PointId, q ≠ p → u.point q = s.point q) ∧ u.ptc.startQueue = s.ptc.startQueue ++ [p]
           ∧ u.point p = .fan { f with state := .queued, drive := false, run := none, uncommandedTimer := none })
       ∧ (f.run = some 0 → f.state = .noFlow → 0 < f.attempts →
         ∃ t u : State, Sys2Proof.Machine.exec (.runDownExpiry p) s = .next t ∧ t = u.grantTest.takeReports
           ∧ (∀ q : PointId, q ≠ p → u.point q = s.point q) ∧ u.ptc.startQueue = s.ptc.startQueue ++ [p]
           ∧ u.point p = .fan { f with state := .queued, drive := false, run := none, uncommandedTimer := none,
                                       attempts := f.attempts - 1 })
       ∧ (f.run = some 0 → f.state = .noFlow → f.attempts = 0 →
         ∃ t u : State, Sys2Proof.Machine.exec (.runDownExpiry p) s = .next t ∧ t = u.takeReports
           ∧ (∀ q : PointId, q ≠ p → u.point q = s.point q) ∧ u.point p = .fan { f with run := none })
       ∧ (f.state = .stopped → f.uncommandedTimer = some 0 →
         ∃ t u : State, Sys2Proof.Machine.exec (.uncommandedTimerExpiry p) s = .next t ∧ t = u.takeReports
           ∧ (∀ q : PointId, q ≠ p → u.point q = s.point q)
           ∧ HandsFaults s u (byteOf p.val) (u.point p).detail [] [.fanUncommanded]
           ∧ u.point p = .fan { f with uncommandedTimer := none, uncommanded := true }))

/-- START_GAP_EXPIRY completes (R138 to R140): with no fan STARTING, the oldest fan of the Start Queue whose unmet set is empty is
granted: STARTING with its drive on, its full prove time, its measurement restarted and the start gap running, and the clear of
FAN-UNCOMMANDED reported where it is active (R136; log 51); with none eligible, or one STARTING, only the gap timer stops. Behind
a late onset of the same event the grant differs in its clear alone, which waits with that onset (R177; log 51: the model's
choice). The STS then takes the reports that wait (sections 5.3 and 5.6; log 7), which changes nothing where there is none. The
no-edge timer counts from the last tick (R145; log 10), and the restart keeps the level of input A and the stamps of its edges
(log 26: the model's choice). -/
def Obligations.StartGapGrants : Prop :=
  (∀ (groups : List (List FaultReport)) (group : List FaultReport) (s : State), s.flu.waiting = groups ++ [group] →
    let t := s.grantTest true
    let clears : List FaultReport := (s.ptc.grantee.toList.filter fun p => match s.point p with
      | .fan f => f.uncommanded
      | _ => false).map fun p =>
      .clear .fanUncommanded (byteOf p.val)
    t = { s.grantTest with bsc := s.bsc, flu := t.flu }
      ∧ t.flu = { s.flu with waiting := groups ++ [group ++ clears], trace := t.flu.trace, writePos := t.flu.writePos,
                             nextSerial := t.flu.nextSerial })
  ∧ ∀ s : State, s.isActive = true → s.ptc.gap = some 0 →
    let waiting (q : PointId) : Prop := ∃ g, s.point q = .fan g ∧ g.state = .queued ∧ g.unmet = 0
    let starting : Prop := ∃ q g, s.point q = .fan g ∧ g.state = .starting
    ∃ t u : State, Sys2Proof.Machine.exec .startGapExpiry s = .next t ∧ t = u.takeReports
      ∧ ((starting ∨ ∀ q ∈ s.ptc.startQueue, ¬waiting q) → u = s.withPtc { s.ptc with gap := none }
          ∧ (s.sts.waiting = [] → t = u))
      ∧ (∀ (before after : List PointId) (p : PointId) (f : Fan), ¬starting →
          s.ptc.startQueue = before ++ p :: after → (∀ q ∈ before, ¬waiting q) → p ∉ before → p ∉ after →
          s.point p = .fan f → f.state = .queued → f.unmet = 0 →
          u.point p = .fan { f with state := .starting, drive := true, prove := some (10 * f.proveTime),
                                    uncommandedTimer := none, uncommanded := false }
            ∧ HandsFaults s u (byteOf p.val) (u.point p).detail (if f.uncommanded = true then [.fanUncommanded] else []) []
            ∧ u.ptc.startQueue = before ++ after ∧ u.ptc.gap = some (10 * s.ptc.startGap)
            ∧ u.measure p = { s.measure p with periods := [], start := none, lastHigh := none, lastLow := none,
                                               proven := false,
                                               noEdge := some (s.cfl.millis + 4 * (s.measure p).threshold) }
            ∧ (∀ q : PointId, q ≠ p → u.point q = s.point q ∧ u.measure q = s.measure q))

/-- PULSE_EDGE of a fan completes (R131, R134, R143): a falling edge records the high duration, a first rising edge begins a
period, a later one completes it; a full list of periods is judged by its average, rounded down. Proof gained takes a STARTING
fan to RUNNING with the clears of FAN-NO-FLOW and FAN-FLOW-LOST active for it and the grant test after it (R139), stops the
flow-loss timer of a RUNNING one and starts the uncommanded timer of a STOPPED one; proof lost starts the flow-loss timer of a
RUNNING one, stops the uncommanded timer of a STOPPED one and ends uncommanded flow, with its clear, in any (R136; log 51). A
level held for less than 1 ms, one that is the level held, and one less than 1 ms after an edge are no change.
NO_EDGE_TIMER_EXPIRY completes (R134, R144): the period list is emptied, the period start is none, the timer is stopped, and a
fan that was proven loses its proof. The stamp is the time of the last tick with the offset, and the expiry is due where less
than a tick remains (log 10). The STS then takes the reports that wait (sections 5.3 and 5.6; log 7), which changes nothing
where there is none. -/
def Obligations.FlowProofIsMeasured : Prop :=
  (∀ (p : PointId) (f : Fan) (level : Level) (offset : Fin 10) (held : Nat) (s : State), s.isActive = true →
    s.point p = .fan f →
    let m := s.measure p
    let millis := max s.cfl.millis offset.val
    let stamp := 10 * s.cfl.ticks + millis
    let noEdge : Timer := some (millis + 4 * m.threshold)
    let taken : Prop := level ≠ m.level ∧ 1000 ≤ held ∧ (∀ x, m.lastRise = some x → x < stamp)
      ∧ ∀ x, m.lastFall = some x → x < stamp
    let hands (u : State) (clears : List FaultKind) : Prop := HandsFaults s u (byteOf p.val) (u.point p).detail clears []
    let starts (u : State) : Prop := f.state = .starting ∧ (u.point p).isStarting = false
    ∃ t u : State, Sys2Proof.Machine.exec (.pulseEdge p level offset held) s = .next t
      ∧ (starts u → t = u.grantTest.takeReports) ∧ (¬starts u → t = u.takeReports)
      ∧ u.cfl = { s.cfl with millis := millis }
      ∧ (¬taken → u = s.withCfl { s.cfl with millis := millis } ∧ (s.sts.waiting = [] → t = u))
      ∧ (∀ q : PointId, q ≠ p → u.point q = s.point q ∧ u.measure q = s.measure q)
      ∧ u.ptc.startQueue = s.ptc.startQueue ∧ u.ptc.gap = s.ptc.gap
      ∧ (taken → level = .broken →
          u.flu = s.flu
            ∧ u.measure p = { m with level := .broken, lastFall := some stamp, noEdge := noEdge,
                                     lastHigh := (m.lastRise.map fun r => stamp - r).or m.lastHigh }
            ∧ u.point p = .fan f)
      ∧ (taken → level = .made → m.start = none →
          u.measure p = { m with level := .made, lastRise := some stamp, start := some stamp, noEdge := noEdge }
            ∧ u.point p = .fan f)
      ∧ (∀ begun fell high, taken → level = .made → m.start = some begun → m.lastFall = some fell →
          m.lastHigh = some high → m.periods.length ≤ m.count →
          let longer := m.periods ++ [(high, stamp - fell)]
          let periods := if m.count < longer.length then longer.drop 1 else longer
          let proven : Bool :=
            if periods.length = m.count then
              decide ((periods.map fun x => x.1 + x.2).sum / periods.length ≤ m.threshold)
            else m.proven
          u.measure p = { m with level := .made, lastRise := some stamp, start := some stamp, noEdge := noEdge,
                                 lastLow := some (stamp - fell), periods := periods, proven := proven }
            ∧ (proven = m.proven → u.point p = .fan f ∧ u.flu = s.flu)
            ∧ (proven = true → m.proven = false →
                (f.state = .starting → u.point p = .fan { f with state := .running, drive := true, prove := none,
                                                                 flow := none, noFlow := false, flowLost := false }
                  ∧ hands u ((if f.noFlow = true then [.fanNoFlow] else [])
                      ++ (if f.flowLost = true then [.fanFlowLost] else [])))
                ∧ (f.state = .running → u.point p = .fan { f with flow := none } ∧ hands u [])
                ∧ (f.state = .stopped → u.point p = .fan { f with uncommandedTimer := some 3000 } ∧ hands u [])
                ∧ (f.state ≠ .starting → f.state ≠ .running → f.state ≠ .stopped → u.point p = .fan f ∧ hands u []))
            ∧ (proven = false → m.proven = true →
                hands u (if f.uncommanded = true then [.fanUncommanded] else [])
                ∧ (f.state = .running →
                    u.point p = .fan { f with flow := some (10 * f.flowLoss), uncommanded := false })
                ∧ (f.state = .stopped → u.point p = .fan { f with uncommandedTimer := none, uncommanded := false })
                ∧ (f.state ≠ .running → f.state ≠ .stopped → u.point p = .fan { f with uncommanded := false }))))
  ∧ ∀ (p : PointId) (f : Fan) (left : Nat) (s : State), s.isActive = true → s.point p = .fan f →
    (s.measure p).noEdge = some left → left < 10 →
    ∃ t u : State, Sys2Proof.Machine.exec (.noEdgeTimerExpiry p) s = .next t ∧ t = u.takeReports
      ∧ (∀ q : PointId, q ≠ p → u.point q = s.point q ∧ u.measure q = s.measure q)
      ∧ u.measure p = { s.measure p with periods := [], start := none, noEdge := none, proven := false }
      ∧ HandsFaults s u (byteOf p.val) (u.point p).detail
          (if (s.measure p).proven = true ∧ f.uncommanded = true then [.fanUncommanded] else []) []
      ∧ ((s.measure p).proven = false → u.point p = .fan f)
      ∧ ((s.measure p).proven = true → f.state = .running →
          u.point p = .fan { f with flow := some (10 * f.flowLoss), uncommanded := false })
      ∧ ((s.measure p).proven = true → f.state = .stopped →
          u.point p = .fan { f with uncommandedTimer := none, uncommanded := false })
      ∧ ((s.measure p).proven = true → f.state ≠ .running → f.state ≠ .stopped →
          u.point p = .fan { f with uncommanded := false })

/-- The frame of the events of the points: they leave every block but the PTC, the PMU, the FLU (its severities stay), the Transmit
Queue, and of the STS the demand, the reports, the stand-down order and the own settlement with its repeat timer; of the timebase
the time of the latest edge within the tick may move (log 10). -/
def Obligations.PointEventsFrame : Prop :=
  ∀ (c : Instr) (s t : State), isPointEvent c = true → Sys2Proof.Machine.exec c s = .next t → KeepsAllButPoints s t

/-- The frame of every command but a start (the resets, RESET_END, IMAGE_LOAD, STATION_RESET), a tick and a write transfer: the
configured parts of every table, those of the point records, the start gap and the measurement records among them, the
configuration, the time in ticks and the queue of commands stay; the time of the latest edge within the tick may move (log 10). -/
def Obligations.SetupFrame : Prop :=
  ∀ (c : Instr) (s t : State), isStart c = false → Sys2Proof.Machine.exec c s = .next t → KeepsSetup s t

/-! ## The bus -/

/-- TRANSMIT_ATTEMPT and CONTENTION_YIELD complete, changing the BSC alone: an attempt begins on the first entry of the queue
where there is one, no attempt stands, the transmitter is not halted, no frame is on the line and the line has been recessive
for 10 bit times or more (R159, R166); its frame is then on the line, and the dominant timer runs from its start bit (R172).
Otherwise the watch for an idle line and the line monitor alone take the bit times, a count that has fallen telling of a
dominant bit (R173), and a frame on the line stays there (log 9, log 50). A yield at a bit sent recessive ends the attempt,
uncounted, with its entry at its place and the winner's frame on the line, dominant at that bit (R161, R172). BIT_ERROR
completes (R162, R164, R169): the attempt ends and its entry counts one more, unless a newer VIEW has replaced it; at the fourth
the entry leaves the queue and TX-FAILED is reported with the kind sent and detail attempts; the own bit error is kept for the
frame on the line, and not at a start bit read recessive, which has put none there (log 21, log 50: the model's inferences).
TRANSMIT_COMPLETE completes (R164, R167, R168): the entry leaves the queue, or stays with its new payload where a newer VIEW has
replaced it, and the bulletin sent joins the Receive FIFO as this station's loopback, or is a receive loss where it holds 8; the
count toward an idle line begins anew, and the line monitor takes the recessive bits at the frame's end (R172, R173; log 9). -/
def Obligations.AttemptsBeginAndEnd : Prop :=
  (∀ s : State, s.isActive = true →
    (∀ quietBits : Nat,
      let free : Prop := s.bsc.attempt = none ∧ s.bsc.linkStuck = false ∧ s.bsc.watch ≠ .frame ∧ 10 ≤ quietBits
      (∀ e rest, s.bsc.queue = e :: rest → free →
        Sys2Proof.Machine.exec (.transmitAttempt quietBits) s = .next (s.withBsc { s.bsc with
          queue := { e with inAttempt := true } :: rest, attempt := some { sent := e.bulletin, replaced := false },
          ownError := false, watch := .frame, dominant := some 250, recovery := none }))
      ∧ (s.bsc.watch = .frame → Sys2Proof.Machine.exec (.transmitAttempt quietBits) s = .next s)
      ∧ (∀ before, s.bsc.watch = .outside before → (s.bsc.queue = [] ∨ ¬free) →
        Sys2Proof.Machine.exec (.transmitAttempt quietBits) s = .next (s.withBsc { s.bsc with
          watch := .outside (min quietBits 10),
          dominant := if 0 < quietBits then none
            else if before = 0 ∨ s.bsc.dominant ≠ none then s.bsc.dominant else some 250,
          recovery := if before ≤ quietBits ∧ (quietBits = 0 ∨ s.bsc.recovery ≠ none) then s.bsc.recovery
            else if 0 < quietBits ∧ s.bsc.linkStuck = true then some (1250 - quietBits) else none })))
    ∧ (∀ (bit : Fin 7) (a : Attempt), s.bsc.attempt = some a →
      (contentionField a.sent.cls s.number).getMsbD bit.val = true →
      Sys2Proof.Machine.exec (.contentionYield bit) s = .next (s.withBsc { s.bsc with
        queue := s.bsc.queue.map (fun e => { e with inAttempt := false }), attempt := none, recovery := none,
        dominant := some (250 - (lastRun
          (false :: (bitsOf (contentionField a.sent.cls s.number)).take bit.val ++ [false])).2) })))
  ∧ (∀ (startBit : Bool) (before after : List TxEntry) (e : TxEntry) (a : Attempt) (s : State), s.isActive = true →
     s.bsc.attempt = some a → s.bsc.queue = before ++ e :: after → e.inAttempt = true → e.attempts ≤ 3 →
     (∀ x ∈ before ++ after, x.inAttempt = false ∧ x.attempts ≤ 3) →
     ∃ t u : State, Sys2Proof.Machine.exec (.bitError startBit) s = .next t ∧ u = s.withBsc u.bsc ∧ u.bsc.attempt = none
       ∧ u.bsc.fifo = s.bsc.fifo ∧ u.bsc.handed = s.bsc.handed ∧ u.bsc.ownError = !startBit
       ∧ u.bsc.watch = (if startBit = true then .outside 10 else s.bsc.watch) ∧ u.bsc.linkStuck = s.bsc.linkStuck
       ∧ (a.replaced = true → t = u ∧ u.bsc.queue = before ++ { e with inAttempt := false } :: after)
       ∧ (a.replaced = false → e.attempts < 3 →
           t = u ∧ u.bsc.queue = before ++ { e with inAttempt := false, attempts := e.attempts + 1 } :: after)
       ∧ (a.replaced = false → e.attempts = 3 →
           u.bsc.queue = before ++ after
             ∧ t = u.onset .txFailed (byteOf a.sent.kindCode.toNat) (.lost .attempts) true))
  ∧ (∀ (a : Attempt) (s : State), s.isActive = true → s.bsc.attempt = some a →
       ∃ t u : State, Sys2Proof.Machine.exec .transmitComplete s = .next t ∧ u = s.withBsc u.bsc ∧ u.bsc.attempt = none
         ∧ u.bsc.handed = s.bsc.handed ∧ u.bsc.watch = .outside 0 ∧ u.bsc.linkStuck = s.bsc.linkStuck
         ∧ u.bsc.dominant = none
         ∧ (∃ held, 7 ≤ held ∧ lastRun (frameBits (assemble s.number a.sent)) = (true, held)
             ∧ u.bsc.recovery = if s.bsc.linkStuck = true then some (1250 - held) else none)
         ∧ (a.replaced = false → u.bsc.queue = s.bsc.queue.filter fun e => !e.inAttempt)
         ∧ (a.replaced = true → u.bsc.queue = s.bsc.queue.map fun e => { e with inAttempt := false })
         ∧ (s.bsc.fifo.length < 8 → t = u
             ∧ u.bsc.fifo = s.bsc.fifo ++ [{ bulletin := a.sent, src := { sender := s.number, origin := .loopback } }])
         ∧ (8 ≤ s.bsc.fifo.length → u.bsc.fifo = s.bsc.fifo ∧ t = u.receiveLoss))

/-- FRAME_COMPLETE and FRAME_ERROR complete (R160, R168, R169, R171): a frame of a peer that passes the checks joins the Receive
FIFO, or is a receive loss where it holds 8; one of this station's number restarts the duplicate timer, with DUPLICATE-STATION
reported where it did not run (a late onset stays on the way, and a receive loss of the same frame behind it, R177; log 51), and
only a CLAIM, a ZONE-REPORT and an OVERRIDE of it join; a frame that fails them is a receive loss, unless this station's own bit
error stands behind it, or it was broken off while the line is stuck (log 21). At the end of any frame the count toward an idle
line begins anew (R159; log 50), and the line monitor takes its last bits: with LINK-STUCK active the recovery timer starts again
at the end of the frame's last dominant bit (R172, R173; log 9). -/
def Obligations.FramesAreReceived : Prop :=
  ∀ (frame : Frame) (s : State), s.isActive = true →
    let recessive (t : State) : Prop := t.bsc.dominant = none
      ∧ ∃ held, 7 ≤ held ∧ lastRun (frameBits frame) = (true, held)
        ∧ t.bsc.recovery = if s.bsc.linkStuck = true then some (1250 - held) else none
    (∀ b, receiveFrame frame = some b → frame.sender ≠ s.number →
      ∃ t u : State, Sys2Proof.Machine.exec (.frameComplete frame) s = .next t ∧ u = s.withBsc u.bsc
        ∧ u.bsc.queue = s.bsc.queue ∧ u.bsc.attempt = s.bsc.attempt ∧ u.bsc.handed = s.bsc.handed
        ∧ u.bsc.watch = .outside 0 ∧ u.bsc.ownError = false ∧ recessive u
        ∧ (s.bsc.fifo.length < 8 → t = u
            ∧ u.bsc.fifo = s.bsc.fifo ++ [{ bulletin := b, src := { sender := frame.sender, origin := .received } }])
        ∧ (8 ≤ s.bsc.fifo.length → u.bsc.fifo = s.bsc.fifo ∧ t = u.receiveLoss))
    ∧ (∀ b, receiveFrame frame = some b → frame.sender = s.number →
      ∃ t : State, Sys2Proof.Machine.exec (.frameComplete frame) s = .next t
        ∧ t = (s.withBsc t.bsc).withFlu t.flu ∧ t.bsc.duplicate = some (10 * s.cfl.absence)
        ∧ t.bsc.watch = .outside 0 ∧ t.bsc.ownError = false ∧ recessive t
        ∧ (s.bsc.duplicate ≠ none → (b.kindCode ≠ 1 ∧ b.kindCode ≠ 4 ∧ b.kindCode ≠ 5) →
            t.bsc.fifo = s.bsc.fifo ∧ t.flu = s.flu)
        ∧ ((b.kindCode ≠ 1 ∧ b.kindCode ≠ 4 ∧ b.kindCode ≠ 5) → t.bsc.fifo = s.bsc.fifo)
        ∧ ((b.kindCode = 1 ∨ b.kindCode = 4 ∨ b.kindCode = 5) → s.bsc.fifo.length < 8 →
            t.bsc.fifo = s.bsc.fifo ++ [{ bulletin := b, src := { sender := s.number, origin := .received } }])
        ∧ (s.bsc.duplicate = none → s.flu.isLate .duplicateStation (byteOf s.number.val) = false → s.flu.active.length < 32 →
            t.flu.holds .duplicateStation (byteOf s.number.val) = true)
        ∧ (s.bsc.duplicate = none → s.flu.isLate .duplicateStation (byteOf s.number.val) = true →
            ∃ behind, t.flu = { s.flu with waiting := s.flu.waiting
                ++ [.onset .duplicateStation (byteOf s.number.val) (.station (s.presence s.number).lastHeard) false :: behind] }
              ∧ ((b.kindCode = 1 ∨ b.kindCode = 4 ∨ b.kindCode = 5) → 8 ≤ s.bsc.fifo.length →
                  behind.head? = some (.onset .rxLoss 255 .none true)
                    ∧ ((s.bsc.holdoff ≠ none ∨ s.bsc.queue.length < 8) → behind = [.onset .rxLoss 255 .none true]))
              ∧ (((b.kindCode ≠ 1 ∧ b.kindCode ≠ 4 ∧ b.kindCode ≠ 5) ∨ s.bsc.fifo.length < 8) → behind = []))
        ∧ ((s.bsc.duplicate ≠ none ∨ s.flu.isLate .duplicateStation (byteOf s.number.val) = false) →
            (b.kindCode = 1 ∨ b.kindCode = 4 ∨ b.kindCode = 5) → 8 ≤ s.bsc.fifo.length →
            MomentaryRecorded s t .rxLoss 255 .none))
    ∧ (∀ brokenOff, receiveFrame frame = none →
      let silent : Prop := s.bsc.ownError = true ∨ (s.bsc.linkStuck = true ∧ brokenOff = true)
      ∃ t u : State, Sys2Proof.Machine.exec (.frameError frame brokenOff) s = .next t
        ∧ u = s.withBsc { s.bsc with
            watch := .outside 0, ownError := false, dominant := u.bsc.dominant, recovery := u.bsc.recovery }
        ∧ (∀ held, lastRun (frameBits frame) = (true, held) → u.bsc.dominant = none
            ∧ u.bsc.recovery = if s.bsc.linkStuck = true then some (1250 - held) else none)
        ∧ (∀ held, lastRun (frameBits frame) = (false, held) → u.bsc.recovery = none
            ∧ u.bsc.dominant = if s.bsc.linkStuck = true ∧ 250 ≤ held then none else some (250 - held))
        ∧ (silent → t = u)
        ∧ (¬silent → t = u.receiveLoss
            ∧ t.bsc.fifo = s.bsc.fifo
            ∧ (s.bsc.holdoff = none → t.bsc.holdoff = some 100)
            ∧ (∀ h, s.bsc.holdoff = some h → t.bsc.holdoff = some h ∧ t.bsc.syncDue = true)
            ∧ (s.severity .rxLoss = .note → has t.flu.noteSeen FaultKind.rxLoss.code = true)))

/-- SYNC_HOLDOFF_EXPIRY and DUPLICATE_TIMER_EXPIRY complete (R170, R171): a SYNC-REQUEST that is due is queued and the holdoff
starts again, else it stops; the duplicate timer stops and DUPLICATE-STATION is cleared. -/
def Obligations.BusTimersExpire : Prop :=
  ∀ s : State, s.isActive = true →
    (s.bsc.holdoff = some 0 → ∃ t : State, Sys2Proof.Machine.exec .syncHoldoffExpiry s = .next t
      ∧ t = (s.withBsc t.bsc).withFlu t.flu ∧ t.bsc.syncDue = false ∧ t.bsc.fifo = s.bsc.fifo
      ∧ (s.bsc.syncDue = false → t = s.withBsc { s.bsc with holdoff := none })
      ∧ (s.bsc.syncDue = true → t.bsc.holdoff = some 100 ∧ (s.bsc.queue.length < 8 → Queued t .syncRequest)))
    ∧ (s.bsc.duplicate = some 0 → ∃ t : State, Sys2Proof.Machine.exec .duplicateTimerExpiry s = .next t
      ∧ t = (s.withBsc t.bsc).withFlu t.flu ∧ t.bsc.duplicate = none ∧ t.bsc.fifo = s.bsc.fifo
      ∧ t.flu.holds .duplicateStation (byteOf s.number.val) = false)

/-- DOMINANT_TIMER_EXPIRY and RECOVERY_TIMER_EXPIRY complete (R80, R157, R172, R173), where the line has stood at the level for
the interval, 250 and 1250 bit times: LINK-STUCK becomes active with the attempt ended, the queue kept, its timers stopped,
local-apply set and an ON-LINE station in ISLAND, the FLU, the PRM and the OVU taking the onset in this order (log 5), a late one
staying on the way (log 51), and the PRM reporting the onset of ISLAND at the entry, before the AGE takes it and the mode change
is handed on (R64, R80, R82); it ends with the Receive FIFO emptied, local-apply cleared, and ISLAND left only where no other
station is configured. The line is then out of any frame, at the onset dominant and at the end idle (log 50). Sooner, or where
LINK-STUCK stands otherwise, the line monitor alone follows the line (log 9). The bit times count from the line's last change,
also one before the entry into JOINING (log 55: the model's choice). -/
def Obligations.StuckLineAndRecovery : Prop :=
  ∀ (heldBits : Nat) (s : State), s.isActive = true →
    (s.bsc.linkStuck = false → 250 ≤ heldBits → ∃ t u : State,
      Sys2Proof.Machine.exec (.dominantTimerExpiry heldBits) s = .next t
      ∧ u = s.withBsc u.bsc ∧ u.bsc.queue = s.bsc.queue.map (fun e => { e with inAttempt := false })
      ∧ u.bsc.attempt = none ∧ u.bsc.linkStuck = true ∧ u.bsc.dominant = none ∧ u.bsc.recovery = none
      ∧ u.bsc.watch = .outside 0
      ∧ t = ((u.onset .linkStuck 255 .none false).prmLinkStuck).startLocalApply
      ∧ (s.prm.mode ≠ .onLine → (∀ g, s.ownsGroup g = true → (s.group g).mode = s.ovu.requested[g]) →
          s.bsc.queue.length < 8 → ∀ e ∈ s.bsc.queue, { e with inAttempt := false } ∈ t.bsc.queue)
      ∧ t.bsc.linkStuck = true ∧ t.bsc.attempt = none ∧ t.bsc.dominant = none ∧ t.bsc.recovery = none
      ∧ t.bsc.fifo = s.bsc.fifo ∧ t.ovu.localApply = true ∧ t.ovu.requested = s.ovu.requested
      ∧ (s.prm.mode = .onLine → t.prm.mode = .island) ∧ (s.prm.mode ≠ .onLine → t.prm.mode = s.prm.mode)
      ∧ (s.flu.isLate .linkStuck 255 = false → s.severity .linkStuck ≠ .masked → s.flu.active.length < 32 →
          t.flu.holds .linkStuck 255 = true)
      ∧ (s.flu.isLate .linkStuck 255 = true → ∃ behind, (.onset .linkStuck 255 .none false :: behind) ∈ t.flu.waiting)
      ∧ (s.prm.mode = .onLine → ∃ v w : State, v = u.onset .linkStuck 255 .none false
          ∧ w = (v.setMode .island).onset .island 255 .none false ∧ OnsetStands s w .island 255 .none
          ∧ t = (w.islandEntry.handMode .onLine).startLocalApply))
    ∧ (s.bsc.linkStuck = false → heldBits < 250 → Sys2Proof.Machine.exec (.dominantTimerExpiry heldBits) s
        = .next (s.withBsc { s.bsc with dominant := some (250 - heldBits), recovery := none }))
    ∧ (s.bsc.linkStuck = true → Sys2Proof.Machine.exec (.dominantTimerExpiry heldBits) s
        = .next (s.withBsc { s.bsc with
            dominant := if 250 ≤ heldBits then none else some (250 - heldBits), recovery := none }))
    ∧ (s.bsc.linkStuck = true → 1250 ≤ heldBits → ∃ t : State,
      Sys2Proof.Machine.exec (.recoveryTimerExpiry heldBits) s = .next t
      ∧ t.bsc.linkStuck = false ∧ t.bsc.attempt = none ∧ t.bsc.fifo = [] ∧ t.bsc.syncDue = false
      ∧ t.bsc.dominant = none ∧ t.bsc.recovery = none ∧ t.bsc.watch = .outside 10
      ∧ t.bsc.holdoff = some 100 ∧ t.ovu.localApply = false ∧ t.ovu.table = s.ovu.table
      ∧ (s.severity .linkStuck ≠ .masked → t.flu.holds .linkStuck 255 = false)
      ∧ ((s.prm.mode ≠ .island ∨ ∃ n : StationId, n ≠ s.number ∧ has s.prm.configured n.val = true) →
          t.prm.mode = s.prm.mode)
      ∧ (s.prm.mode = .island → (∀ n : StationId, n ≠ s.number → has s.prm.configured n.val = false) →
          t.prm.mode = .joiningAfterIsland))
    ∧ (s.bsc.linkStuck = true → heldBits < 1250 → Sys2Proof.Machine.exec (.recoveryTimerExpiry heldBits) s
        = .next (s.withBsc { s.bsc with dominant := none, recovery := some (1250 - heldBits) }))
    ∧ (s.bsc.linkStuck = false → Sys2Proof.Machine.exec (.recoveryTimerExpiry heldBits) s
        = .next (s.withBsc { s.bsc with dominant := none, recovery := none }))

/-- A bulletin handed to the Transmit Queue, whose entries stand in the order of their classes (R163). A VIEW handed while one
stands in the queue takes its place, its time and its attempt, with the payload new and the count 0, whether the queue is full
or not (R164). Any other joins behind the entries of its class or of more urgent ones and before the rest, which keep their
order. In a full queue the youngest entry of the least urgent class that is not in an attempt makes room for a more urgent
bulletin, and is the one lost; else the new bulletin is (R165). A bulletin lost is reported as TX-FAILED, detail overflow, and
in STARTING and CONFIG-FAULT none is taken (R165, R175). -/
def Obligations.OverflowDisplacesLeastUrgent : Prop :=
  (∀ (c : Bsc) (b : Bulletin) (now : Nat),
    let new : TxEntry := { bulletin := b, queuedAt := now, attempts := 0, inAttempt := false }
    let joins (kept queue : List TxEntry) : Prop := ∃ front back, kept = front ++ back ∧ queue = front ++ new :: back
      ∧ (∀ y ∈ front, y.bulletin.cls ≤ b.cls) ∧ ∀ y ∈ back, b.cls < y.bulletin.cls
    let sorted : Prop := c.queue.Pairwise fun y z => y.bulletin.cls ≤ z.bulletin.cls
    (∀ before after e, b.isView = true → c.queue = before ++ e :: after → e.bulletin.isView = true →
        (∀ y ∈ before ++ after, y.bulletin.isView = false) →
        c.accept b now = ({ c with
          queue := before ++ { e with bulletin := b, attempts := 0 } :: after,
          attempt := if e.inAttempt = true then c.attempt.map (fun a => { a with replaced := true }) else c.attempt }, none))
    ∧ ((b.isView = false ∨ txHoldsView c.queue = false) →
        (sorted → c.queue.length < 8 → ∃ queue, joins c.queue queue ∧ c.accept b now = ({ c with queue := queue }, none))
        ∧ (∀ before after x, c.queue = before ++ x :: after → 8 ≤ c.queue.length → x.inAttempt = false →
            (∀ y ∈ after, y.inAttempt = true) →
            (sorted → b.cls < x.bulletin.cls → ∃ queue, joins (before ++ after) queue
              ∧ c.accept b now = ({ c with queue := queue }, some x.bulletin))
            ∧ (x.bulletin.cls ≤ b.cls → c.accept b now = (c, some b)))
        ∧ (8 ≤ c.queue.length → (∀ y ∈ c.queue, y.inAttempt = true) → c.accept b now = (c, some b))))
  ∧ ∀ (b : Bulletin) (s : State),
    (s.isActive = false → s.queue b = s)
    ∧ (∀ c, s.isActive = true → s.bsc.accept b s.cfl.ticks = (c, none) → s.queue b = s.withBsc c)
    ∧ (∀ c lost, s.isActive = true → s.bsc.accept b s.cfl.ticks = (c, some lost) → s.queue b
        = (s.withBsc c).onset .txFailed (byteOf lost.kindCode.toNat) (.lost .overflow) true)

/-- What the FLU does with a report (R177 to R182). The onset of a condition fault that the last tick names as late stays on the
way, as reported, and its clear can overtake it; any other is taken at once, and so is every clear (R178; log 51). Of the reports
that one event of a block hands together, those before the first late onset are taken in their order, and that onset stays on the
way with all that the event hands behind it, in their order (R177; log 51: the model's choice). CONFIG-BAD and DUPLICATE-STATION
are CRITICAL and every other kind has the severity the table gives it. A MASKED report changes nothing, nor does an onset of a
condition that stands, nor a clear of one that does not. An onset taken enters the table, sets the latch where it is momentary and
serious, or, the table full, sets FAULT-TABLE-FULL and the latch; it fills the first record of its severity or joins the
next-fault set or the NOTE-seen set; the lines follow the table and the latch; one trace entry is written. A clear removes the
entry and writes one trace entry. A serious one queues a FAULT-NOTICE in JOINING, ON-LINE and ISLAND; one that is lost, or
displaces another, is recorded without a notice of its own (log 8). -/
def Obligations.FaultReports : Prop :=
  (∀ (before behind : List FaultReport) (s : State),
    let takes (y : State) (r : FaultReport) : State :=
      match r with
      | .onset k subject detail momentary => y.takeOnset k subject detail momentary
      | .clear k subject => y.takeClear k subject
    let late (r : FaultReport) : Prop := ∃ k subject detail, r = .onset k subject detail false
      ∧ { code := byteOf k.code, subject := subject } ∈ s.flu.late
    (∀ r ∈ before, ¬late r) → s.handTogether before false = sweep before takes s
      ∧ ∀ r, late r → s.handTogether (before ++ r :: behind) false =
          let u := sweep before takes s
          u.withFlu { u.flu with waiting := u.flu.waiting ++ [r :: behind] })
  ∧ (∀ (k : FaultKind) (s : State), s.severity k =
    if k = .configBad ∨ k = .duplicateStation then .critical else s.flu.severities[k.index])
  ∧ (∀ (k : FaultKind) (subject : Byte) (detail : Detail) (momentary : Bool) (s : State),
    let v := s.severity k
    let taken : Prop := v ≠ .masked ∧ (momentary = true ∨ ∀ e ∈ s.flu.active, e.kind = k → e.subject ≠ subject)
    let record : FirstRecord :=
      { kind := k, subject := subject, onset := s.now, mode := s.prm.mode, epoch := s.age.view.epoch,
        phase := s.age.view.phase, scenario := s.age.view.scenario, step := s.age.view.step, detail := detail }
    let written := s.trace .faultOnset subject (byteOf k.code) v.code
    let late : Prop := momentary = false ∧ { code := byteOf k.code, subject := subject } ∈ s.flu.late
    (late → s.onset k subject detail momentary = s.withFlu { s.flu with
        waiting := s.flu.waiting ++ [[.onset k subject detail false]] })
    ∧ (¬late → s.onset k subject detail momentary = s.takeOnset k subject detail momentary)
    ∧ (¬taken → s.takeOnset k subject detail momentary = s)
    ∧ (taken → ∃ u : State, u = s.withFlu u.flu
        ∧ ((v = .trouble ∨ v = .critical) → s.takeOnset k subject detail momentary
            = u.queueNotice (.faultNotice (byteOf k.code) subject (severityEdge v true)))
        ∧ (v = .note → s.takeOnset k subject detail momentary = u)
        ∧ (momentary = true → u.flu.active = s.flu.active ∧ u.flu.tableFull = s.flu.tableFull
            ∧ (u.flu.latch = true ↔ s.flu.latch = true ∨ v = .trouble ∨ v = .critical))
        ∧ (momentary = false → 32 ≤ s.flu.active.length →
            u.flu.active = s.flu.active ∧ u.flu.tableFull = true ∧ u.flu.latch = true)
        ∧ (momentary = false → s.flu.active.length < 32 →
            u.flu.active = s.flu.active ++ [{ kind := k, subject := subject, severity := v, onset := s.now }]
              ∧ u.flu.tableFull = s.flu.tableFull ∧ u.flu.latch = s.flu.latch)
        ∧ u.flu.firstCritical = (if v = .critical ∧ s.flu.firstCritical = none then some record else s.flu.firstCritical)
        ∧ u.flu.firstTrouble = (if v = .trouble ∧ s.flu.firstTrouble = none then some record else s.flu.firstTrouble)
        ∧ u.flu.nextCritical = (if v = .critical ∧ s.flu.firstCritical ≠ none then insert s.flu.nextCritical k.code
            else s.flu.nextCritical)
        ∧ u.flu.nextTrouble = (if v = .trouble ∧ s.flu.firstTrouble ≠ none then insert s.flu.nextTrouble k.code
            else s.flu.nextTrouble)
        ∧ u.flu.noteSeen = (if v = .note then insert s.flu.noteSeen k.code else s.flu.noteSeen)
        ∧ (u.flu.troubleLine = true ↔ u.flu.latch = true
            ∨ ∃ e ∈ u.flu.active, e.severity = .trouble ∨ e.severity = .critical)
        ∧ (u.flu.criticalLine = true ↔ ∃ e ∈ u.flu.active, e.severity = .critical)
        ∧ u.flu.trace = written.flu.trace ∧ u.flu.writePos = written.flu.writePos
        ∧ u.flu.nextSerial = written.flu.nextSerial ∧ u.flu.severities = s.flu.severities
        ∧ u.flu.late = s.flu.late ∧ u.flu.waiting = s.flu.waiting))
  ∧ (∀ (k : FaultKind) (subject : Byte) (s : State),
    let v := s.severity k
    let taken : Prop := v ≠ .masked ∧ ∃ e ∈ s.flu.active, e.kind = k ∧ e.subject = subject
    let written := s.trace .faultClear subject (byteOf k.code) v.code
    s.clear k subject = s.takeClear k subject ∧ (¬taken → s.clear k subject = s)
    ∧ (taken → ∃ u : State, u = s.withFlu u.flu
        ∧ ((v = .trouble ∨ v = .critical) →
            s.clear k subject = u.queueNotice (.faultNotice (byteOf k.code) subject (severityEdge v false)))
        ∧ (v = .note → s.clear k subject = u)
        ∧ u.flu = { written.flu with
            active := s.flu.active.filter fun e => !decide (e.kind = k ∧ e.subject = subject),
            troubleLine := u.flu.troubleLine, criticalLine := u.flu.criticalLine }
        ∧ (u.flu.troubleLine = true ↔ u.flu.latch = true
            ∨ ∃ e ∈ u.flu.active, e.severity = .trouble ∨ e.severity = .critical)
        ∧ (u.flu.criticalLine = true ↔ ∃ e ∈ u.flu.active, e.severity = .critical)))
  ∧ ∀ (kind subject edge : Byte) (s : State),
    let b : Bulletin := .faultNotice kind subject edge
    (s.isActive = false → s.queueNotice b = s)
    ∧ (s.isActive = true → s.bsc.queue.length < 8 → s.queueNotice b = s.withBsc { s.bsc with
        queue := txPlace { bulletin := b, queuedAt := s.cfl.ticks, attempts := 0, inAttempt := false } s.bsc.queue })
    ∧ (∀ c lost, s.isActive = true → s.bsc.accept b s.cfl.ticks = (c, some lost) → s.queueNotice b
        = (s.withBsc c).recordOnset .txFailed (byteOf lost.kindCode.toNat) (.lost .overflow) true)

/-- The Sequence Trace (R184, R185): an entry takes the write position with the next serial, the time since start, the kind, the
subject and the values, the position and the serial move on by one round their circles, and nothing else changes; the twelve
kinds have the codes of their order. Each event of the twelve writes its entry, with the subject and the values of the table of
R185; the entries of faults are in `FaultReports`, those of resets in `ResetsRestoreStation`. Where other entries of the same
command stand is the model's order (log 7, log 20). -/
def Obligations.TraceEvents : Prop :=
  (∀ (kind : TraceKind) (subject value1 value2 : Byte) (s : State),
    let t := s.trace kind subject value1 value2
    t = s.withFlu { s.flu with trace := t.flu.trace, writePos := s.flu.writePos + 1, nextSerial := s.flu.nextSerial + 1 }
      ∧ t.flu.trace[s.flu.writePos] = some { serial := s.flu.nextSerial, time := s.now, kind := kind, subject := subject,
                                             value1 := value1, value2 := value2 }
      ∧ ∀ i : Fin 128, i ≠ s.flu.writePos → t.flu.trace[i] = s.flu.trace[i])
  ∧ (127 : Fin 128) + 1 = 0
  ∧ [TraceKind.viewAdopted, .windowOpened, .windowClosed, .stepStarted, .stepComplete, .stepForced, .pointState,
      .overrideChanged, .faultOnset, .faultClear, .modeChanged, .standDown].map TraceKind.code
      = [1, 2, 3, 4, 5, 6, 7, 8, 9, 10, 11, 12]
  ∧ (∀ (s : State) (v : View) (sender : StationId) (byEscalate : Bool), ∃ u : State, u.cfl = s.cfl
      ∧ (s.adopt v sender byEscalate).1 = ((u.trace .viewAdopted (byteOf sender.val) (zoneByte v.origin)
          (byteOf v.scenario.val)).queueView).escalationTest
      ∧ (v.phase = .idle → s.age.view.phase ≠ .idle → ∃ w : State, w.cfl = s.cfl
          ∧ u = w.trace .standDown (zoneByte s.age.view.origin) (byteOf (v.epoch.toNat / 256)) (byteOf v.epoch.toNat)))
  ∧ (∀ (s : State) (epoch : Epoch) (z : ZoneId), ∃ u : State, u.cfl = s.cfl
      ∧ (s.openWindow epoch z).1
        = (u.trace .windowOpened (byteOf z.val) (byteOf (epoch.toNat / 256)) (byteOf epoch.toNat)).queueView)
  ∧ (∀ (s : State) (z : ZoneId), s.highest s.age.candidates = some z → ∃ u : State, u.cfl = s.cfl
      ∧ u.age.view.origin = some z
      ∧ s.commitOrigin = ((u.trace .windowClosed (byteOf z.val) (byteOf u.age.view.scenario.val)
          (byteOf u.age.subsequent.length)).queueView).escalationTest)
  ∧ (∀ (s : State) (z : ZoneId), s.homeAlarms.head? = some z → ∃ u : State, u.cfl = s.cfl
      ∧ u.age.view.origin = some z
      ∧ s.islandFire.1 = ((u.trace .windowClosed (byteOf z.val) (byteOf u.age.view.scenario.val)
          (byteOf u.age.subsequent.length)).queueView).escalationTest)
  ∧ (∀ (s : State) (k : StepId), ∃ u : State, u.cfl = s.cfl ∧ s.beginStep k
      = (u.trace .stepStarted (byteOf k.val) (byteOf s.sts.scenario.val) (byteOf (size u.sts.expected))).writeDemands)
  ∧ (∀ s : State, ∃ u : State, u.cfl = s.cfl ∧ s.markBarrier = u.trace .stepComplete (byteOf s.sts.step.val)
      (byteOf s.sts.scenario.val) (byteOf (size (s.row s.sts.step).withFaults)))
  ∧ (∀ (s : State) (k : StepId),
      ((s.row k).completion ≠ .opened → s.catchUpRow k = s)
      ∧ ((s.row k).completion = .opened → ∃ u : State, u.cfl = s.cfl ∧ s.catchUpRow k
        = u.trace .stepComplete (byteOf k.val) (byteOf s.sts.scenario.val) (byteOf (size (s.row k).withFaults))))
  ∧ (∀ s : State, ∃ u : State, u.cfl = s.cfl ∧ s.forceStep = (u.trace .stepForced (byteOf s.sts.step.val)
      (byteOf s.sts.scenario.val) (byteOf (size (s.sts.expected &&& ~~~(s.row s.sts.step).heard)))).advance)
  ∧ (∀ (s : State) (p : PointId),
      (∀ d, s.point p = .damper d → ∃ u : State, u.cfl = s.cfl
        ∧ s.reportPoint p = u.trace .pointState (byteOf p.val) d.state.code d.demand.code)
      ∧ (∀ f, s.point p = .fan f → ∃ u : State, u.cfl = s.cfl
        ∧ s.reportPoint p = u.trace .pointState (byteOf p.val) f.state.code f.demand.code))
  ∧ (∀ (s : State) (g : GroupId) (m : GroupMode),
      (((s.group g).mode = m ∧ (s.group g).stale = false) → (s.acceptOverride g m).flu = s.flu)
      ∧ (¬((s.group g).mode = m ∧ (s.group g).stale = false) → ∃ u : State, u.cfl = s.cfl
        ∧ s.acceptOverride g m = u.trace .overrideChanged (byteOf g.val) m.code 0)
      ∧ ((s.group g).mode ≠ m → ∃ u : State, u.cfl = s.cfl
        ∧ s.applyMode g m = u.trace .overrideChanged (byteOf g.val) m.code (if (s.group g).stale then 1 else 0))
      ∧ (∀ n : StationId, (s.group g).owner = some n → (s.group g).stale = false → ∃ u : State, u.cfl = s.cfl
        ∧ State.markGroup n s g = u.trace .overrideChanged (byteOf g.val) (s.group g).mode.code 1))
  ∧ (∀ (s : State) (old : Mode), ∃ u : State, u.cfl = s.cfl
      ∧ s.handMode old = u.trace .modeChanged 255 old.code s.prm.mode.code)
  ∧ ∀ (s : State) (f : LoadFailure), ∃ u : State, u.cfl.ticks = s.cfl.ticks
      ∧ s.reject f = (u.trace .modeChanged 255 s.prm.mode.code Mode.configFault.code).onset .configBad 255 .none false

/-- R41: the precedence of two views, test by test, total, and blind to scenario, step and established flag. A zone of an in-use
entry has a rank of at least 1, so none ranks below it. -/
def Obligations.ViewPrecedence : Prop :=
  ∀ (s : State) (a b : View),
    (ahead a.epoch b.epoch = true → s.greater a b = true ∧ s.greater b a = false)
    ∧ ((a.epoch - b.epoch).toNat = 32768 → s.greater a b = decide (b.epoch.toNat < a.epoch.toNat))
    ∧ (a.epoch = b.epoch → a.phase = .idle → b.phase ≠ .idle → s.greater a b = true ∧ s.greater b a = false)
    ∧ (a.epoch = b.epoch → a.phase ≠ .idle → b.phase ≠ .idle → a.escalated = true → b.escalated = false →
        s.greater a b = true ∧ s.greater b a = false)
    ∧ (a.epoch = b.epoch → a.escalated = b.escalated → a.phase = .running → b.phase = .gathering →
        s.greater a b = true ∧ s.greater b a = false)
    ∧ (a.epoch = b.epoch → a.escalated = b.escalated → a.phase = b.phase → a.phase ≠ .idle →
        (∀ y z, a.origin = some y → b.origin = some z → s.greater a b = decide (s.rank z < s.rank y))
        ∧ (∀ y, a.origin = some y → b.origin = none → 1 ≤ s.rank y → s.greater a b = true ∧ s.greater b a = false)
        ∧ (a.origin = b.origin → s.greater a b = false))
    ∧ (a.epoch = b.epoch → a.phase = .idle → b.phase = .idle → s.greater a b = false)
    ∧ (s.greater a b = true → s.greater b a = false)
    ∧ (s.equalRank a b = true ↔ s.greater a b = false ∧ s.greater b a = false)
    ∧ (∀ scenario step established,
        s.greater { a with scenario := scenario, step := step, established := established } b = s.greater a b
        ∧ s.greater b { a with scenario := scenario, step := step, established := established } = s.greater b a)

/-- R89 source by source, with the frozen demand of R91, and R112 and R127 for the drives. The first source that applies gives the
demand: not running; the override of the point's group; REST while joining after reset and the frozen demand while joining after
island, the view unsettled; the action of a scenario step reached; PRE outside IDLE; the demand held by a damper under a pending
stand-down order; the normal action. A freeze takes what the rule gives with the override passed over; of an overridden damper
under a pending stand-down order it takes the demand its entry holds, the override's, with source STAND-DOWN-HOLD (log 45: the
model's choice). -/
def Obligations.DemandSourcesAndDrives : Prop :=
  (∀ (p : PointId) (s : State),
    let r := s.point p
    let program := s.sts.points[p]
    let planned := program.scenarios[s.sts.scenario]
    let runs : Prop := s.isActive = true ∧ r.isUnused = false
    let overridden : Prop := ∃ g, program.group = some g ∧ (s.group g).mode ≠ .auto
    let joins : Prop := s.sts.viewSettled = false ∧ s.prm.mode.joining = true
    let reached : Prop := s.sts.phase = .running ∧ planned.action ≠ .leave
      ∧ (s.sts.established = true ∨ planned.step ≤ s.sts.step)
    let placed : Prop := s.sts.phase ≠ .idle ∧ program.pre ≠ .leave
    let holds : Prop := r.isDamper = true ∧ s.sts.standDownPending = true
    let byView (e : DemandEntry) : Prop :=
      (∀ d, reached → planned.action = .give d → e = { demand := d, source := .scenario })
      ∧ (∀ d, ¬reached → s.sts.phase ≠ .idle → program.pre = .give d → e = { demand := d, source := .pre })
      ∧ (¬reached → ¬placed → holds → e = { demand := (s.sts.demands[p]).demand, source := .standDownHold })
      ∧ (∀ d, ¬reached → ¬placed → ¬holds → program.normal = .give d → e = { demand := d, source := .normal })
    (¬runs → s.demandOf p = { demand := .rest, source := .rest })
    ∧ (∀ g, runs → program.group = some g →
        ((s.group g).mode = .on → r.isFan = true → s.demandOf p = { demand := .run, source := .override })
        ∧ ((s.group g).mode = .off → r.isFan = true → s.demandOf p = { demand := .stop, source := .override })
        ∧ ((s.group g).mode = .on → r.isDamper = true → s.demandOf p = { demand := .toOpen, source := .override })
        ∧ ((s.group g).mode = .off → r.isDamper = true → s.demandOf p = { demand := .toShut, source := .override }))
    ∧ (runs → ¬overridden → s.sts.viewSettled = false → s.prm.mode = .joiningAfterReset →
        s.demandOf p = { demand := .rest, source := .rest })
    ∧ (runs → ¬overridden → s.sts.viewSettled = false → s.prm.mode = .joiningAfterIsland →
        s.demandOf p = s.sts.frozen[p])
    ∧ (runs → ¬overridden → ¬joins → byView (s.demandOf p))
    ∧ (r.isUnused = true → s.freeze.sts.frozen[p] = { demand := .rest, source := .rest })
    ∧ (r.isUnused = false → byView s.freeze.sts.frozen[p]))
  ∧ damperDrive false .toOpen = true ∧ damperDrive true .toOpen = false
  ∧ damperDrive false .toShut = false ∧ damperDrive true .toShut = true
  ∧ damperDrive false .rest = false ∧ damperDrive true .rest = false
  ∧ fanDrive .starting = true ∧ fanDrive .running = true ∧ fanDrive .stopped = false ∧ fanDrive .queued = false
  ∧ fanDrive .stopping = false ∧ fanDrive .noFlow = false ∧ fanDrive .tripped = false

/-- A received frame is read as the bulletin that its transmitter assembled (R160, R166): every bulletin of every station, with
every payload, comes through, but for a VIEW whose mode bits are 3, which R160 makes a format error. A frame of an unknown kind,
of a length that is not its kind's, with a dominant end bit, with VIEW mode bits 3, or whose check differs from the one
computed, is no bulletin (R160). -/
def Obligations.FramesCarryBulletins : Prop :=
  (∀ (n : StationId) (b : Bulletin),
    (∀ e f o c k d, b = .view e f o c k d → f.extractLsb' 1 2 ≠ 3) →
    receiveFrame (assemble n b) = some b ∧ (assemble n b).sender = n)
  ∧ ∀ f : Frame,
    ((f.kind = 0 ∨ 9 < f.kind.toNat) → receiveFrame f = none)
    ∧ (f.kind = 1 → f.length ≠ 3 → receiveFrame f = none) ∧ (f.kind = 2 → f.length ≠ 4 → receiveFrame f = none)
    ∧ (f.kind = 3 → f.length ≠ 2 → receiveFrame f = none) ∧ (f.kind = 4 → f.length ≠ 2 → receiveFrame f = none)
    ∧ (f.kind = 5 → f.length ≠ 2 → receiveFrame f = none) ∧ (f.kind = 6 → f.length ≠ 8 → receiveFrame f = none)
    ∧ (f.kind = 7 → f.length ≠ 5 → receiveFrame f = none) ∧ (f.kind = 8 → f.length ≠ 0 → receiveFrame f = none)
    ∧ (f.kind = 9 → f.length ≠ 3 → receiveFrame f = none)
    ∧ (f.endField ≠ 127 → receiveFrame f = none)
    ∧ (f.crc ≠ frameCheck f.cls f.sender f.kind f.length f.payload → receiveFrame f = none)
    ∧ (∀ e flags o c k d, f.kind = 6 → f.payload = (Bulletin.view e flags o c k d).payload →
        flags.extractLsb' 1 2 = 3 → receiveFrame f = none)

/-! ## Invariants -/

/-- The station is in order right after a power-on reset. -/
def Obligations.ResetIsInOrder : Prop :=
  BusInOrder State.reset ∧ FaultsInOrder State.reset ∧ PointsInOrder State.reset ∧ ReportsInOrder State.reset
    ∧ AgreementInOrder State.reset ∧ ZonesInOrder State.reset ∧ InactiveIsBare State.reset

/-- Every step keeps the Bus Controller in order (R162, R163, R166, R168, R172). -/
def Obligations.StepKeepsBusInOrder : Prop :=
  ∀ s t : State, BusInOrder s → step s = .next t → BusInOrder t

/-- Every step keeps the Fault Unit in order (R177 to R181). -/
def Obligations.StepKeepsFaultsInOrder : Prop :=
  ∀ s t : State, FaultsInOrder s → step s = .next t → FaultsInOrder t

/-- Every step keeps the points in order: drives, interlocks, the Start Queue, one fan STARTING (R112, R127, R137 to R139,
R141); and the last report of every point as the point stands, with none waiting (R99, R120, R146). -/
def Obligations.StepKeepsPointsInOrder : Prop :=
  (∀ s t : State, PointsInOrder s → step s = .next t → PointsInOrder t)
    ∧ ∀ s t : State, ReportsInOrder s → step s = .next t → ReportsInOrder t

/-- Every step keeps the Scenario Record in order (R37 to R39). -/
def Obligations.StepKeepsAgreementInOrder : Prop :=
  ∀ s t : State, AgreementInOrder s → step s = .next t → AgreementInOrder t

/-- Every step keeps the entries of the home zones at the conditions their lines give (R28, R29), and the queues and the fault
table of a station that is not started bare (R175, R178). -/
def Obligations.StepKeepsZonesInOrder : Prop :=
  (∀ s t : State, ZonesInOrder s → step s = .next t → ZonesInOrder t)
    ∧ ∀ s t : State, InactiveIsBare s → step s = .next t → InactiveIsBare t

end
end

