-- ==== Sys2Proof/Laws/State.lean ====
section
/-! SUPPORT. What each update of the state leaves and what it writes: one lemma for each field of the state under each update,
and the reading of a table after an entry is put into it. -/

namespace Sys2Proof.Machine

/-! ## Tables -/

/-- The entry put is the entry read. -/
@[simp] theorem put_getElem_self {α : Type} {n : Nat} (v : Vector α n) (i : Fin n) (x : α) : (put v i x)[i] = x := by
  simp [put]

/-- An entry put leaves every other entry. -/
theorem put_getElem_ne {α : Type} {n : Nat} (v : Vector α n) (i j : Fin n) (x : α) (h : i ≠ j) :
    (put v i x)[j] = v[j] := by
  have hv : i.val ≠ j.val := fun e => h (Fin.ext e)
  simp [put, hv]

/-- Reading a table after an entry is put into it. -/
theorem put_getElem {α : Type} {n : Nat} (v : Vector α n) (i j : Fin n) (x : α) :
    (put v i x)[j] = if i = j then x else v[j] := by
  by_cases h : i = j
  · subst h; simp [put]
  · simp [h, put_getElem_ne v i j x h]

/-- The entry put is the entry read, with the index as a number. -/
@[simp] theorem put_getElem_val {α : Type} {n : Nat} (v : Vector α n) (i : Fin n) (x : α) :
    (put v i x)[i.val] = x := by
  simp [put]

/-- An entry put where it already stands changes nothing. -/
@[simp] theorem put_self {α : Type} {n : Nat} (v : Vector α n) (i : Fin n) : put v i v[i] = v := by
  simp [put]

/-- The second of two entries put at one place stands. -/
@[simp] theorem put_put {α : Type} {n : Nat} (v : Vector α n) (i : Fin n) (x y : α) : put (put v i x) i y = put v i y := by
  simp [put]

/-! ## One block replaced -/

@[simp] theorem withLiu_liu (s : State) (x : Liu) : (s.withLiu x).liu = x := rfl
@[simp] theorem withLiu_ztu (s : State) (x : Liu) : (s.withLiu x).ztu = s.ztu := rfl
@[simp] theorem withLiu_age (s : State) (x : Liu) : (s.withLiu x).age = s.age := rfl
@[simp] theorem withLiu_prm (s : State) (x : Liu) : (s.withLiu x).prm = s.prm := rfl
@[simp] theorem withLiu_sts (s : State) (x : Liu) : (s.withLiu x).sts = s.sts := rfl
@[simp] theorem withLiu_ptc (s : State) (x : Liu) : (s.withLiu x).ptc = s.ptc := rfl
@[simp] theorem withLiu_pmu (s : State) (x : Liu) : (s.withLiu x).pmu = s.pmu := rfl
@[simp] theorem withLiu_ovu (s : State) (x : Liu) : (s.withLiu x).ovu = s.ovu := rfl
@[simp] theorem withLiu_bsc (s : State) (x : Liu) : (s.withLiu x).bsc = s.bsc := rfl
@[simp] theorem withLiu_flu (s : State) (x : Liu) : (s.withLiu x).flu = s.flu := rfl
@[simp] theorem withLiu_cfl (s : State) (x : Liu) : (s.withLiu x).cfl = s.cfl := rfl
@[simp] theorem withLiu_mnp (s : State) (x : Liu) : (s.withLiu x).mnp = s.mnp := rfl
@[simp] theorem withLiu_pending (s : State) (x : Liu) : (s.withLiu x).pending = s.pending := rfl
/-- A block replaced by itself changes nothing. -/
@[simp] theorem withLiu_self (s : State) : s.withLiu s.liu = s := rfl
/-- The second of two replacements stands. -/
@[simp] theorem withLiu_withLiu (s : State) (x y : Liu) : (s.withLiu x).withLiu y = s.withLiu y := rfl
@[simp] theorem withZtu_liu (s : State) (x : Ztu) : (s.withZtu x).liu = s.liu := rfl
@[simp] theorem withZtu_ztu (s : State) (x : Ztu) : (s.withZtu x).ztu = x := rfl
@[simp] theorem withZtu_age (s : State) (x : Ztu) : (s.withZtu x).age = s.age := rfl
@[simp] theorem withZtu_prm (s : State) (x : Ztu) : (s.withZtu x).prm = s.prm := rfl
@[simp] theorem withZtu_sts (s : State) (x : Ztu) : (s.withZtu x).sts = s.sts := rfl
@[simp] theorem withZtu_ptc (s : State) (x : Ztu) : (s.withZtu x).ptc = s.ptc := rfl
@[simp] theorem withZtu_pmu (s : State) (x : Ztu) : (s.withZtu x).pmu = s.pmu := rfl
@[simp] theorem withZtu_ovu (s : State) (x : Ztu) : (s.withZtu x).ovu = s.ovu := rfl
@[simp] theorem withZtu_bsc (s : State) (x : Ztu) : (s.withZtu x).bsc = s.bsc := rfl
@[simp] theorem withZtu_flu (s : State) (x : Ztu) : (s.withZtu x).flu = s.flu := rfl
@[simp] theorem withZtu_cfl (s : State) (x : Ztu) : (s.withZtu x).cfl = s.cfl := rfl
@[simp] theorem withZtu_mnp (s : State) (x : Ztu) : (s.withZtu x).mnp = s.mnp := rfl
@[simp] theorem withZtu_pending (s : State) (x : Ztu) : (s.withZtu x).pending = s.pending := rfl
/-- A block replaced by itself changes nothing. -/
@[simp] theorem withZtu_self (s : State) : s.withZtu s.ztu = s := rfl
/-- The second of two replacements stands. -/
@[simp] theorem withZtu_withZtu (s : State) (x y : Ztu) : (s.withZtu x).withZtu y = s.withZtu y := rfl
@[simp] theorem withAge_liu (s : State) (x : Age) : (s.withAge x).liu = s.liu := rfl
@[simp] theorem withAge_ztu (s : State) (x : Age) : (s.withAge x).ztu = s.ztu := rfl
@[simp] theorem withAge_age (s : State) (x : Age) : (s.withAge x).age = x := rfl
@[simp] theorem withAge_prm (s : State) (x : Age) : (s.withAge x).prm = s.prm := rfl
@[simp] theorem withAge_sts (s : State) (x : Age) : (s.withAge x).sts = s.sts := rfl
@[simp] theorem withAge_ptc (s : State) (x : Age) : (s.withAge x).ptc = s.ptc := rfl
@[simp] theorem withAge_pmu (s : State) (x : Age) : (s.withAge x).pmu = s.pmu := rfl
@[simp] theorem withAge_ovu (s : State) (x : Age) : (s.withAge x).ovu = s.ovu := rfl
@[simp] theorem withAge_bsc (s : State) (x : Age) : (s.withAge x).bsc = s.bsc := rfl
@[simp] theorem withAge_flu (s : State) (x : Age) : (s.withAge x).flu = s.flu := rfl
@[simp] theorem withAge_cfl (s : State) (x : Age) : (s.withAge x).cfl = s.cfl := rfl
@[simp] theorem withAge_mnp (s : State) (x : Age) : (s.withAge x).mnp = s.mnp := rfl
@[simp] theorem withAge_pending (s : State) (x : Age) : (s.withAge x).pending = s.pending := rfl
/-- A block replaced by itself changes nothing. -/
@[simp] theorem withAge_self (s : State) : s.withAge s.age = s := rfl
/-- The second of two replacements stands. -/
@[simp] theorem withAge_withAge (s : State) (x y : Age) : (s.withAge x).withAge y = s.withAge y := rfl
@[simp] theorem withPrm_liu (s : State) (x : Prm) : (s.withPrm x).liu = s.liu := rfl
@[simp] theorem withPrm_ztu (s : State) (x : Prm) : (s.withPrm x).ztu = s.ztu := rfl
@[simp] theorem withPrm_age (s : State) (x : Prm) : (s.withPrm x).age = s.age := rfl
@[simp] theorem withPrm_prm (s : State) (x : Prm) : (s.withPrm x).prm = x := rfl
@[simp] theorem withPrm_sts (s : State) (x : Prm) : (s.withPrm x).sts = s.sts := rfl
@[simp] theorem withPrm_ptc (s : State) (x : Prm) : (s.withPrm x).ptc = s.ptc := rfl
@[simp] theorem withPrm_pmu (s : State) (x : Prm) : (s.withPrm x).pmu = s.pmu := rfl
@[simp] theorem withPrm_ovu (s : State) (x : Prm) : (s.withPrm x).ovu = s.ovu := rfl
@[simp] theorem withPrm_bsc (s : State) (x : Prm) : (s.withPrm x).bsc = s.bsc := rfl
@[simp] theorem withPrm_flu (s : State) (x : Prm) : (s.withPrm x).flu = s.flu := rfl
@[simp] theorem withPrm_cfl (s : State) (x : Prm) : (s.withPrm x).cfl = s.cfl := rfl
@[simp] theorem withPrm_mnp (s : State) (x : Prm) : (s.withPrm x).mnp = s.mnp := rfl
@[simp] theorem withPrm_pending (s : State) (x : Prm) : (s.withPrm x).pending = s.pending := rfl
/-- A block replaced by itself changes nothing. -/
@[simp] theorem withPrm_self (s : State) : s.withPrm s.prm = s := rfl
/-- The second of two replacements stands. -/
@[simp] theorem withPrm_withPrm (s : State) (x y : Prm) : (s.withPrm x).withPrm y = s.withPrm y := rfl
@[simp] theorem withSts_liu (s : State) (x : Sts) : (s.withSts x).liu = s.liu := rfl
@[simp] theorem withSts_ztu (s : State) (x : Sts) : (s.withSts x).ztu = s.ztu := rfl
@[simp] theorem withSts_age (s : State) (x : Sts) : (s.withSts x).age = s.age := rfl
@[simp] theorem withSts_prm (s : State) (x : Sts) : (s.withSts x).prm = s.prm := rfl
@[simp] theorem withSts_sts (s : State) (x : Sts) : (s.withSts x).sts = x := rfl
@[simp] theorem withSts_ptc (s : State) (x : Sts) : (s.withSts x).ptc = s.ptc := rfl
@[simp] theorem withSts_pmu (s : State) (x : Sts) : (s.withSts x).pmu = s.pmu := rfl
@[simp] theorem withSts_ovu (s : State) (x : Sts) : (s.withSts x).ovu = s.ovu := rfl
@[simp] theorem withSts_bsc (s : State) (x : Sts) : (s.withSts x).bsc = s.bsc := rfl
@[simp] theorem withSts_flu (s : State) (x : Sts) : (s.withSts x).flu = s.flu := rfl
@[simp] theorem withSts_cfl (s : State) (x : Sts) : (s.withSts x).cfl = s.cfl := rfl
@[simp] theorem withSts_mnp (s : State) (x : Sts) : (s.withSts x).mnp = s.mnp := rfl
@[simp] theorem withSts_pending (s : State) (x : Sts) : (s.withSts x).pending = s.pending := rfl
/-- A block replaced by itself changes nothing. -/
@[simp] theorem withSts_self (s : State) : s.withSts s.sts = s := rfl
/-- The second of two replacements stands. -/
@[simp] theorem withSts_withSts (s : State) (x y : Sts) : (s.withSts x).withSts y = s.withSts y := rfl
@[simp] theorem withPtc_liu (s : State) (x : Ptc) : (s.withPtc x).liu = s.liu := rfl
@[simp] theorem withPtc_ztu (s : State) (x : Ptc) : (s.withPtc x).ztu = s.ztu := rfl
@[simp] theorem withPtc_age (s : State) (x : Ptc) : (s.withPtc x).age = s.age := rfl
@[simp] theorem withPtc_prm (s : State) (x : Ptc) : (s.withPtc x).prm = s.prm := rfl
@[simp] theorem withPtc_sts (s : State) (x : Ptc) : (s.withPtc x).sts = s.sts := rfl
@[simp] theorem withPtc_ptc (s : State) (x : Ptc) : (s.withPtc x).ptc = x := rfl
@[simp] theorem withPtc_pmu (s : State) (x : Ptc) : (s.withPtc x).pmu = s.pmu := rfl
@[simp] theorem withPtc_ovu (s : State) (x : Ptc) : (s.withPtc x).ovu = s.ovu := rfl
@[simp] theorem withPtc_bsc (s : State) (x : Ptc) : (s.withPtc x).bsc = s.bsc := rfl
@[simp] theorem withPtc_flu (s : State) (x : Ptc) : (s.withPtc x).flu = s.flu := rfl
@[simp] theorem withPtc_cfl (s : State) (x : Ptc) : (s.withPtc x).cfl = s.cfl := rfl
@[simp] theorem withPtc_mnp (s : State) (x : Ptc) : (s.withPtc x).mnp = s.mnp := rfl
@[simp] theorem withPtc_pending (s : State) (x : Ptc) : (s.withPtc x).pending = s.pending := rfl
/-- A block replaced by itself changes nothing. -/
@[simp] theorem withPtc_self (s : State) : s.withPtc s.ptc = s := rfl
/-- The second of two replacements stands. -/
@[simp] theorem withPtc_withPtc (s : State) (x y : Ptc) : (s.withPtc x).withPtc y = s.withPtc y := rfl
@[simp] theorem withPmu_liu (s : State) (x : Vector Pmu 16) : (s.withPmu x).liu = s.liu := rfl
@[simp] theorem withPmu_ztu (s : State) (x : Vector Pmu 16) : (s.withPmu x).ztu = s.ztu := rfl
@[simp] theorem withPmu_age (s : State) (x : Vector Pmu 16) : (s.withPmu x).age = s.age := rfl
@[simp] theorem withPmu_prm (s : State) (x : Vector Pmu 16) : (s.withPmu x).prm = s.prm := rfl
@[simp] theorem withPmu_sts (s : State) (x : Vector Pmu 16) : (s.withPmu x).sts = s.sts := rfl
@[simp] theorem withPmu_ptc (s : State) (x : Vector Pmu 16) : (s.withPmu x).ptc = s.ptc := rfl
@[simp] theorem withPmu_pmu (s : State) (x : Vector Pmu 16) : (s.withPmu x).pmu = x := rfl
@[simp] theorem withPmu_ovu (s : State) (x : Vector Pmu 16) : (s.withPmu x).ovu = s.ovu := rfl
@[simp] theorem withPmu_bsc (s : State) (x : Vector Pmu 16) : (s.withPmu x).bsc = s.bsc := rfl
@[simp] theorem withPmu_flu (s : State) (x : Vector Pmu 16) : (s.withPmu x).flu = s.flu := rfl
@[simp] theorem withPmu_cfl (s : State) (x : Vector Pmu 16) : (s.withPmu x).cfl = s.cfl := rfl
@[simp] theorem withPmu_mnp (s : State) (x : Vector Pmu 16) : (s.withPmu x).mnp = s.mnp := rfl
@[simp] theorem withPmu_pending (s : State) (x : Vector Pmu 16) : (s.withPmu x).pending = s.pending := rfl
/-- A block replaced by itself changes nothing. -/
@[simp] theorem withPmu_self (s : State) : s.withPmu s.pmu = s := rfl
/-- The second of two replacements stands. -/
@[simp] theorem withPmu_withPmu (s : State) (x y : Vector Pmu 16) : (s.withPmu x).withPmu y = s.withPmu y := rfl
@[simp] theorem withOvu_liu (s : State) (x : Ovu) : (s.withOvu x).liu = s.liu := rfl
@[simp] theorem withOvu_ztu (s : State) (x : Ovu) : (s.withOvu x).ztu = s.ztu := rfl
@[simp] theorem withOvu_age (s : State) (x : Ovu) : (s.withOvu x).age = s.age := rfl
@[simp] theorem withOvu_prm (s : State) (x : Ovu) : (s.withOvu x).prm = s.prm := rfl
@[simp] theorem withOvu_sts (s : State) (x : Ovu) : (s.withOvu x).sts = s.sts := rfl
@[simp] theorem withOvu_ptc (s : State) (x : Ovu) : (s.withOvu x).ptc = s.ptc := rfl
@[simp] theorem withOvu_pmu (s : State) (x : Ovu) : (s.withOvu x).pmu = s.pmu := rfl
@[simp] theorem withOvu_ovu (s : State) (x : Ovu) : (s.withOvu x).ovu = x := rfl
@[simp] theorem withOvu_bsc (s : State) (x : Ovu) : (s.withOvu x).bsc = s.bsc := rfl
@[simp] theorem withOvu_flu (s : State) (x : Ovu) : (s.withOvu x).flu = s.flu := rfl
@[simp] theorem withOvu_cfl (s : State) (x : Ovu) : (s.withOvu x).cfl = s.cfl := rfl
@[simp] theorem withOvu_mnp (s : State) (x : Ovu) : (s.withOvu x).mnp = s.mnp := rfl
@[simp] theorem withOvu_pending (s : State) (x : Ovu) : (s.withOvu x).pending = s.pending := rfl
/-- A block replaced by itself changes nothing. -/
@[simp] theorem withOvu_self (s : State) : s.withOvu s.ovu = s := rfl
/-- The second of two replacements stands. -/
@[simp] theorem withOvu_withOvu (s : State) (x y : Ovu) : (s.withOvu x).withOvu y = s.withOvu y := rfl
@[simp] theorem withBsc_liu (s : State) (x : Bsc) : (s.withBsc x).liu = s.liu := rfl
@[simp] theorem withBsc_ztu (s : State) (x : Bsc) : (s.withBsc x).ztu = s.ztu := rfl
@[simp] theorem withBsc_age (s : State) (x : Bsc) : (s.withBsc x).age = s.age := rfl
@[simp] theorem withBsc_prm (s : State) (x : Bsc) : (s.withBsc x).prm = s.prm := rfl
@[simp] theorem withBsc_sts (s : State) (x : Bsc) : (s.withBsc x).sts = s.sts := rfl
@[simp] theorem withBsc_ptc (s : State) (x : Bsc) : (s.withBsc x).ptc = s.ptc := rfl
@[simp] theorem withBsc_pmu (s : State) (x : Bsc) : (s.withBsc x).pmu = s.pmu := rfl
@[simp] theorem withBsc_ovu (s : State) (x : Bsc) : (s.withBsc x).ovu = s.ovu := rfl
@[simp] theorem withBsc_bsc (s : State) (x : Bsc) : (s.withBsc x).bsc = x := rfl
@[simp] theorem withBsc_flu (s : State) (x : Bsc) : (s.withBsc x).flu = s.flu := rfl
@[simp] theorem withBsc_cfl (s : State) (x : Bsc) : (s.withBsc x).cfl = s.cfl := rfl
@[simp] theorem withBsc_mnp (s : State) (x : Bsc) : (s.withBsc x).mnp = s.mnp := rfl
@[simp] theorem withBsc_pending (s : State) (x : Bsc) : (s.withBsc x).pending = s.pending := rfl
/-- A block replaced by itself changes nothing. -/
@[simp] theorem withBsc_self (s : State) : s.withBsc s.bsc = s := rfl
/-- The second of two replacements stands. -/
@[simp] theorem withBsc_withBsc (s : State) (x y : Bsc) : (s.withBsc x).withBsc y = s.withBsc y := rfl
@[simp] theorem withFlu_liu (s : State) (x : Flu) : (s.withFlu x).liu = s.liu := rfl
@[simp] theorem withFlu_ztu (s : State) (x : Flu) : (s.withFlu x).ztu = s.ztu := rfl
@[simp] theorem withFlu_age (s : State) (x : Flu) : (s.withFlu x).age = s.age := rfl
@[simp] theorem withFlu_prm (s : State) (x : Flu) : (s.withFlu x).prm = s.prm := rfl
@[simp] theorem withFlu_sts (s : State) (x : Flu) : (s.withFlu x).sts = s.sts := rfl
@[simp] theorem withFlu_ptc (s : State) (x : Flu) : (s.withFlu x).ptc = s.ptc := rfl
@[simp] theorem withFlu_pmu (s : State) (x : Flu) : (s.withFlu x).pmu = s.pmu := rfl
@[simp] theorem withFlu_ovu (s : State) (x : Flu) : (s.withFlu x).ovu = s.ovu := rfl
@[simp] theorem withFlu_bsc (s : State) (x : Flu) : (s.withFlu x).bsc = s.bsc := rfl
@[simp] theorem withFlu_flu (s : State) (x : Flu) : (s.withFlu x).flu = x := rfl
@[simp] theorem withFlu_cfl (s : State) (x : Flu) : (s.withFlu x).cfl = s.cfl := rfl
@[simp] theorem withFlu_mnp (s : State) (x : Flu) : (s.withFlu x).mnp = s.mnp := rfl
@[simp] theorem withFlu_pending (s : State) (x : Flu) : (s.withFlu x).pending = s.pending := rfl
/-- A block replaced by itself changes nothing. -/
@[simp] theorem withFlu_self (s : State) : s.withFlu s.flu = s := rfl
/-- The second of two replacements stands. -/
@[simp] theorem withFlu_withFlu (s : State) (x y : Flu) : (s.withFlu x).withFlu y = s.withFlu y := rfl
@[simp] theorem withCfl_liu (s : State) (x : Cfl) : (s.withCfl x).liu = s.liu := rfl
@[simp] theorem withCfl_ztu (s : State) (x : Cfl) : (s.withCfl x).ztu = s.ztu := rfl
@[simp] theorem withCfl_age (s : State) (x : Cfl) : (s.withCfl x).age = s.age := rfl
@[simp] theorem withCfl_prm (s : State) (x : Cfl) : (s.withCfl x).prm = s.prm := rfl
@[simp] theorem withCfl_sts (s : State) (x : Cfl) : (s.withCfl x).sts = s.sts := rfl
@[simp] theorem withCfl_ptc (s : State) (x : Cfl) : (s.withCfl x).ptc = s.ptc := rfl
@[simp] theorem withCfl_pmu (s : State) (x : Cfl) : (s.withCfl x).pmu = s.pmu := rfl
@[simp] theorem withCfl_ovu (s : State) (x : Cfl) : (s.withCfl x).ovu = s.ovu := rfl
@[simp] theorem withCfl_bsc (s : State) (x : Cfl) : (s.withCfl x).bsc = s.bsc := rfl
@[simp] theorem withCfl_flu (s : State) (x : Cfl) : (s.withCfl x).flu = s.flu := rfl
@[simp] theorem withCfl_cfl (s : State) (x : Cfl) : (s.withCfl x).cfl = x := rfl
@[simp] theorem withCfl_mnp (s : State) (x : Cfl) : (s.withCfl x).mnp = s.mnp := rfl
@[simp] theorem withCfl_pending (s : State) (x : Cfl) : (s.withCfl x).pending = s.pending := rfl
/-- A block replaced by itself changes nothing. -/
@[simp] theorem withCfl_self (s : State) : s.withCfl s.cfl = s := rfl
/-- The second of two replacements stands. -/
@[simp] theorem withCfl_withCfl (s : State) (x y : Cfl) : (s.withCfl x).withCfl y = s.withCfl y := rfl
@[simp] theorem withMnp_liu (s : State) (x : Mnp) : (s.withMnp x).liu = s.liu := rfl
@[simp] theorem withMnp_ztu (s : State) (x : Mnp) : (s.withMnp x).ztu = s.ztu := rfl
@[simp] theorem withMnp_age (s : State) (x : Mnp) : (s.withMnp x).age = s.age := rfl
@[simp] theorem withMnp_prm (s : State) (x : Mnp) : (s.withMnp x).prm = s.prm := rfl
@[simp] theorem withMnp_sts (s : State) (x : Mnp) : (s.withMnp x).sts = s.sts := rfl
@[simp] theorem withMnp_ptc (s : State) (x : Mnp) : (s.withMnp x).ptc = s.ptc := rfl
@[simp] theorem withMnp_pmu (s : State) (x : Mnp) : (s.withMnp x).pmu = s.pmu := rfl
@[simp] theorem withMnp_ovu (s : State) (x : Mnp) : (s.withMnp x).ovu = s.ovu := rfl
@[simp] theorem withMnp_bsc (s : State) (x : Mnp) : (s.withMnp x).bsc = s.bsc := rfl
@[simp] theorem withMnp_flu (s : State) (x : Mnp) : (s.withMnp x).flu = s.flu := rfl
@[simp] theorem withMnp_cfl (s : State) (x : Mnp) : (s.withMnp x).cfl = s.cfl := rfl
@[simp] theorem withMnp_mnp (s : State) (x : Mnp) : (s.withMnp x).mnp = x := rfl
@[simp] theorem withMnp_pending (s : State) (x : Mnp) : (s.withMnp x).pending = s.pending := rfl
/-- A block replaced by itself changes nothing. -/
@[simp] theorem withMnp_self (s : State) : s.withMnp s.mnp = s := rfl
/-- The second of two replacements stands. -/
@[simp] theorem withMnp_withMnp (s : State) (x y : Mnp) : (s.withMnp x).withMnp y = s.withMnp y := rfl
@[simp] theorem withPending_liu (s : State) (x : List Instr) : (s.withPending x).liu = s.liu := rfl
@[simp] theorem withPending_ztu (s : State) (x : List Instr) : (s.withPending x).ztu = s.ztu := rfl
@[simp] theorem withPending_age (s : State) (x : List Instr) : (s.withPending x).age = s.age := rfl
@[simp] theorem withPending_prm (s : State) (x : List Instr) : (s.withPending x).prm = s.prm := rfl
@[simp] theorem withPending_sts (s : State) (x : List Instr) : (s.withPending x).sts = s.sts := rfl
@[simp] theorem withPending_ptc (s : State) (x : List Instr) : (s.withPending x).ptc = s.ptc := rfl
@[simp] theorem withPending_pmu (s : State) (x : List Instr) : (s.withPending x).pmu = s.pmu := rfl
@[simp] theorem withPending_ovu (s : State) (x : List Instr) : (s.withPending x).ovu = s.ovu := rfl
@[simp] theorem withPending_bsc (s : State) (x : List Instr) : (s.withPending x).bsc = s.bsc := rfl
@[simp] theorem withPending_flu (s : State) (x : List Instr) : (s.withPending x).flu = s.flu := rfl
@[simp] theorem withPending_cfl (s : State) (x : List Instr) : (s.withPending x).cfl = s.cfl := rfl
@[simp] theorem withPending_mnp (s : State) (x : List Instr) : (s.withPending x).mnp = s.mnp := rfl
@[simp] theorem withPending_pending (s : State) (x : List Instr) : (s.withPending x).pending = x := rfl
/-- A block replaced by itself changes nothing. -/
@[simp] theorem withPending_self (s : State) : s.withPending s.pending = s := rfl
/-- The second of two replacements stands. -/
@[simp] theorem withPending_withPending (s : State) (x y : List Instr) : (s.withPending x).withPending y = s.withPending y := rfl

/-! ## One entry of a table replaced -/

@[simp] theorem setPoint_liu (s : State) (p : PointId) (x : PointRecord) : (s.setPoint p x).liu = s.liu := rfl
@[simp] theorem setPoint_ztu (s : State) (p : PointId) (x : PointRecord) : (s.setPoint p x).ztu = s.ztu := rfl
@[simp] theorem setPoint_age (s : State) (p : PointId) (x : PointRecord) : (s.setPoint p x).age = s.age := rfl
@[simp] theorem setPoint_prm (s : State) (p : PointId) (x : PointRecord) : (s.setPoint p x).prm = s.prm := rfl
@[simp] theorem setPoint_sts (s : State) (p : PointId) (x : PointRecord) : (s.setPoint p x).sts = s.sts := rfl
@[simp] theorem setPoint_pmu (s : State) (p : PointId) (x : PointRecord) : (s.setPoint p x).pmu = s.pmu := rfl
@[simp] theorem setPoint_ovu (s : State) (p : PointId) (x : PointRecord) : (s.setPoint p x).ovu = s.ovu := rfl
@[simp] theorem setPoint_bsc (s : State) (p : PointId) (x : PointRecord) : (s.setPoint p x).bsc = s.bsc := rfl
@[simp] theorem setPoint_flu (s : State) (p : PointId) (x : PointRecord) : (s.setPoint p x).flu = s.flu := rfl
@[simp] theorem setPoint_cfl (s : State) (p : PointId) (x : PointRecord) : (s.setPoint p x).cfl = s.cfl := rfl
@[simp] theorem setPoint_mnp (s : State) (p : PointId) (x : PointRecord) : (s.setPoint p x).mnp = s.mnp := rfl
@[simp] theorem setPoint_pending (s : State) (p : PointId) (x : PointRecord) : (s.setPoint p x).pending = s.pending := rfl
@[simp] theorem setPoint_ptc (s : State) (p : PointId) (x : PointRecord) :
    (s.setPoint p x).ptc = { s.ptc with points := put s.ptc.points p x } := rfl
@[simp] theorem setLine_ztu (s : State) (l : LineId) (x : LineRecord) : (s.setLine l x).ztu = s.ztu := rfl
@[simp] theorem setLine_age (s : State) (l : LineId) (x : LineRecord) : (s.setLine l x).age = s.age := rfl
@[simp] theorem setLine_prm (s : State) (l : LineId) (x : LineRecord) : (s.setLine l x).prm = s.prm := rfl
@[simp] theorem setLine_sts (s : State) (l : LineId) (x : LineRecord) : (s.setLine l x).sts = s.sts := rfl
@[simp] theorem setLine_ptc (s : State) (l : LineId) (x : LineRecord) : (s.setLine l x).ptc = s.ptc := rfl
@[simp] theorem setLine_pmu (s : State) (l : LineId) (x : LineRecord) : (s.setLine l x).pmu = s.pmu := rfl
@[simp] theorem setLine_ovu (s : State) (l : LineId) (x : LineRecord) : (s.setLine l x).ovu = s.ovu := rfl
@[simp] theorem setLine_bsc (s : State) (l : LineId) (x : LineRecord) : (s.setLine l x).bsc = s.bsc := rfl
@[simp] theorem setLine_flu (s : State) (l : LineId) (x : LineRecord) : (s.setLine l x).flu = s.flu := rfl
@[simp] theorem setLine_cfl (s : State) (l : LineId) (x : LineRecord) : (s.setLine l x).cfl = s.cfl := rfl
@[simp] theorem setLine_mnp (s : State) (l : LineId) (x : LineRecord) : (s.setLine l x).mnp = s.mnp := rfl
@[simp] theorem setLine_pending (s : State) (l : LineId) (x : LineRecord) : (s.setLine l x).pending = s.pending := rfl
@[simp] theorem setLine_liu (s : State) (l : LineId) (x : LineRecord) :
    (s.setLine l x).liu = { s.liu with lines := put s.liu.lines l x } := rfl
@[simp] theorem setZone_liu (s : State) (z : ZoneId) (x : ZoneEntry) : (s.setZone z x).liu = s.liu := rfl
@[simp] theorem setZone_age (s : State) (z : ZoneId) (x : ZoneEntry) : (s.setZone z x).age = s.age := rfl
@[simp] theorem setZone_prm (s : State) (z : ZoneId) (x : ZoneEntry) : (s.setZone z x).prm = s.prm := rfl
@[simp] theorem setZone_sts (s : State) (z : ZoneId) (x : ZoneEntry) : (s.setZone z x).sts = s.sts := rfl
@[simp] theorem setZone_ptc (s : State) (z : ZoneId) (x : ZoneEntry) : (s.setZone z x).ptc = s.ptc := rfl
@[simp] theorem setZone_pmu (s : State) (z : ZoneId) (x : ZoneEntry) : (s.setZone z x).pmu = s.pmu := rfl
@[simp] theorem setZone_ovu (s : State) (z : ZoneId) (x : ZoneEntry) : (s.setZone z x).ovu = s.ovu := rfl
@[simp] theorem setZone_bsc (s : State) (z : ZoneId) (x : ZoneEntry) : (s.setZone z x).bsc = s.bsc := rfl
@[simp] theorem setZone_flu (s : State) (z : ZoneId) (x : ZoneEntry) : (s.setZone z x).flu = s.flu := rfl
@[simp] theorem setZone_cfl (s : State) (z : ZoneId) (x : ZoneEntry) : (s.setZone z x).cfl = s.cfl := rfl
@[simp] theorem setZone_mnp (s : State) (z : ZoneId) (x : ZoneEntry) : (s.setZone z x).mnp = s.mnp := rfl
@[simp] theorem setZone_pending (s : State) (z : ZoneId) (x : ZoneEntry) : (s.setZone z x).pending = s.pending := rfl
@[simp] theorem setZone_ztu (s : State) (z : ZoneId) (x : ZoneEntry) :
    (s.setZone z x).ztu = { s.ztu with zones := put s.ztu.zones z x } := rfl
@[simp] theorem setPresence_liu (s : State) (n : StationId) (x : PresenceEntry) : (s.setPresence n x).liu = s.liu := rfl
@[simp] theorem setPresence_ztu (s : State) (n : StationId) (x : PresenceEntry) : (s.setPresence n x).ztu = s.ztu := rfl
@[simp] theorem setPresence_age (s : State) (n : StationId) (x : PresenceEntry) : (s.setPresence n x).age = s.age := rfl
@[simp] theorem setPresence_sts (s : State) (n : StationId) (x : PresenceEntry) : (s.setPresence n x).sts = s.sts := rfl
@[simp] theorem setPresence_ptc (s : State) (n : StationId) (x : PresenceEntry) : (s.setPresence n x).ptc = s.ptc := rfl
@[simp] theorem setPresence_pmu (s : State) (n : StationId) (x : PresenceEntry) : (s.setPresence n x).pmu = s.pmu := rfl
@[simp] theorem setPresence_ovu (s : State) (n : StationId) (x : PresenceEntry) : (s.setPresence n x).ovu = s.ovu := rfl
@[simp] theorem setPresence_bsc (s : State) (n : StationId) (x : PresenceEntry) : (s.setPresence n x).bsc = s.bsc := rfl
@[simp] theorem setPresence_flu (s : State) (n : StationId) (x : PresenceEntry) : (s.setPresence n x).flu = s.flu := rfl
@[simp] theorem setPresence_cfl (s : State) (n : StationId) (x : PresenceEntry) : (s.setPresence n x).cfl = s.cfl := rfl
@[simp] theorem setPresence_mnp (s : State) (n : StationId) (x : PresenceEntry) : (s.setPresence n x).mnp = s.mnp := rfl
@[simp] theorem setPresence_pending (s : State) (n : StationId) (x : PresenceEntry) : (s.setPresence n x).pending = s.pending := rfl
@[simp] theorem setPresence_prm (s : State) (n : StationId) (x : PresenceEntry) :
    (s.setPresence n x).prm = { s.prm with table := put s.prm.table n x } := rfl
@[simp] theorem setGroup_liu (s : State) (g : GroupId) (x : OverrideEntry) : (s.setGroup g x).liu = s.liu := rfl
@[simp] theorem setGroup_ztu (s : State) (g : GroupId) (x : OverrideEntry) : (s.setGroup g x).ztu = s.ztu := rfl
@[simp] theorem setGroup_age (s : State) (g : GroupId) (x : OverrideEntry) : (s.setGroup g x).age = s.age := rfl
@[simp] theorem setGroup_prm (s : State) (g : GroupId) (x : OverrideEntry) : (s.setGroup g x).prm = s.prm := rfl
@[simp] theorem setGroup_sts (s : State) (g : GroupId) (x : OverrideEntry) : (s.setGroup g x).sts = s.sts := rfl
@[simp] theorem setGroup_ptc (s : State) (g : GroupId) (x : OverrideEntry) : (s.setGroup g x).ptc = s.ptc := rfl
@[simp] theorem setGroup_pmu (s : State) (g : GroupId) (x : OverrideEntry) : (s.setGroup g x).pmu = s.pmu := rfl
@[simp] theorem setGroup_bsc (s : State) (g : GroupId) (x : OverrideEntry) : (s.setGroup g x).bsc = s.bsc := rfl
@[simp] theorem setGroup_flu (s : State) (g : GroupId) (x : OverrideEntry) : (s.setGroup g x).flu = s.flu := rfl
@[simp] theorem setGroup_cfl (s : State) (g : GroupId) (x : OverrideEntry) : (s.setGroup g x).cfl = s.cfl := rfl
@[simp] theorem setGroup_mnp (s : State) (g : GroupId) (x : OverrideEntry) : (s.setGroup g x).mnp = s.mnp := rfl
@[simp] theorem setGroup_pending (s : State) (g : GroupId) (x : OverrideEntry) : (s.setGroup g x).pending = s.pending := rfl
@[simp] theorem setGroup_ovu (s : State) (g : GroupId) (x : OverrideEntry) :
    (s.setGroup g x).ovu = { s.ovu with table := put s.ovu.table g x } := rfl
@[simp] theorem setMeasure_liu (s : State) (p : PointId) (x : Pmu) : (s.setMeasure p x).liu = s.liu := rfl
@[simp] theorem setMeasure_ztu (s : State) (p : PointId) (x : Pmu) : (s.setMeasure p x).ztu = s.ztu := rfl
@[simp] theorem setMeasure_age (s : State) (p : PointId) (x : Pmu) : (s.setMeasure p x).age = s.age := rfl
@[simp] theorem setMeasure_prm (s : State) (p : PointId) (x : Pmu) : (s.setMeasure p x).prm = s.prm := rfl
@[simp] theorem setMeasure_sts (s : State) (p : PointId) (x : Pmu) : (s.setMeasure p x).sts = s.sts := rfl
@[simp] theorem setMeasure_ptc (s : State) (p : PointId) (x : Pmu) : (s.setMeasure p x).ptc = s.ptc := rfl
@[simp] theorem setMeasure_ovu (s : State) (p : PointId) (x : Pmu) : (s.setMeasure p x).ovu = s.ovu := rfl
@[simp] theorem setMeasure_bsc (s : State) (p : PointId) (x : Pmu) : (s.setMeasure p x).bsc = s.bsc := rfl
@[simp] theorem setMeasure_flu (s : State) (p : PointId) (x : Pmu) : (s.setMeasure p x).flu = s.flu := rfl
@[simp] theorem setMeasure_cfl (s : State) (p : PointId) (x : Pmu) : (s.setMeasure p x).cfl = s.cfl := rfl
@[simp] theorem setMeasure_mnp (s : State) (p : PointId) (x : Pmu) : (s.setMeasure p x).mnp = s.mnp := rfl
@[simp] theorem setMeasure_pending (s : State) (p : PointId) (x : Pmu) : (s.setMeasure p x).pending = s.pending := rfl
@[simp] theorem setMeasure_pmu (s : State) (p : PointId) (x : Pmu) : (s.setMeasure p x).pmu = put s.pmu p x := rfl
@[simp] theorem setCommand_ztu (s : State) (l : LineId) (x : CommandRecord) : (s.setCommand l x).ztu = s.ztu := rfl
@[simp] theorem setCommand_age (s : State) (l : LineId) (x : CommandRecord) : (s.setCommand l x).age = s.age := rfl
@[simp] theorem setCommand_prm (s : State) (l : LineId) (x : CommandRecord) : (s.setCommand l x).prm = s.prm := rfl
@[simp] theorem setCommand_sts (s : State) (l : LineId) (x : CommandRecord) : (s.setCommand l x).sts = s.sts := rfl
@[simp] theorem setCommand_ptc (s : State) (l : LineId) (x : CommandRecord) : (s.setCommand l x).ptc = s.ptc := rfl
@[simp] theorem setCommand_pmu (s : State) (l : LineId) (x : CommandRecord) : (s.setCommand l x).pmu = s.pmu := rfl
@[simp] theorem setCommand_ovu (s : State) (l : LineId) (x : CommandRecord) : (s.setCommand l x).ovu = s.ovu := rfl
@[simp] theorem setCommand_bsc (s : State) (l : LineId) (x : CommandRecord) : (s.setCommand l x).bsc = s.bsc := rfl
@[simp] theorem setCommand_flu (s : State) (l : LineId) (x : CommandRecord) : (s.setCommand l x).flu = s.flu := rfl
@[simp] theorem setCommand_cfl (s : State) (l : LineId) (x : CommandRecord) : (s.setCommand l x).cfl = s.cfl := rfl
@[simp] theorem setCommand_mnp (s : State) (l : LineId) (x : CommandRecord) : (s.setCommand l x).mnp = s.mnp := rfl
@[simp] theorem setCommand_pending (s : State) (l : LineId) (x : CommandRecord) : (s.setCommand l x).pending = s.pending := rfl
@[simp] theorem setCommand_liu (s : State) (l : LineId) (x : CommandRecord) :
    (s.setCommand l x).liu = { s.liu with commands := put s.liu.commands l x } := rfl
@[simp] theorem setMode_liu (s : State) (x : Mode) : (s.setMode x).liu = s.liu := rfl
@[simp] theorem setMode_ztu (s : State) (x : Mode) : (s.setMode x).ztu = s.ztu := rfl
@[simp] theorem setMode_age (s : State) (x : Mode) : (s.setMode x).age = s.age := rfl
@[simp] theorem setMode_sts (s : State) (x : Mode) : (s.setMode x).sts = s.sts := rfl
@[simp] theorem setMode_ptc (s : State) (x : Mode) : (s.setMode x).ptc = s.ptc := rfl
@[simp] theorem setMode_pmu (s : State) (x : Mode) : (s.setMode x).pmu = s.pmu := rfl
@[simp] theorem setMode_ovu (s : State) (x : Mode) : (s.setMode x).ovu = s.ovu := rfl
@[simp] theorem setMode_bsc (s : State) (x : Mode) : (s.setMode x).bsc = s.bsc := rfl
@[simp] theorem setMode_flu (s : State) (x : Mode) : (s.setMode x).flu = s.flu := rfl
@[simp] theorem setMode_cfl (s : State) (x : Mode) : (s.setMode x).cfl = s.cfl := rfl
@[simp] theorem setMode_mnp (s : State) (x : Mode) : (s.setMode x).mnp = s.mnp := rfl
@[simp] theorem setMode_pending (s : State) (x : Mode) : (s.setMode x).pending = s.pending := rfl
@[simp] theorem setMode_prm (s : State) (x : Mode) : (s.setMode x).prm = { s.prm with mode := x } := rfl

/-! ## The time, the reports that wait, and the line monitor -/

@[simp] theorem atMillis_liu (s : State) (offset : Nat) : (s.atMillis offset).liu = s.liu := rfl
@[simp] theorem atMillis_ztu (s : State) (offset : Nat) : (s.atMillis offset).ztu = s.ztu := rfl
@[simp] theorem atMillis_age (s : State) (offset : Nat) : (s.atMillis offset).age = s.age := rfl
@[simp] theorem atMillis_prm (s : State) (offset : Nat) : (s.atMillis offset).prm = s.prm := rfl
@[simp] theorem atMillis_sts (s : State) (offset : Nat) : (s.atMillis offset).sts = s.sts := rfl
@[simp] theorem atMillis_ptc (s : State) (offset : Nat) : (s.atMillis offset).ptc = s.ptc := rfl
@[simp] theorem atMillis_pmu (s : State) (offset : Nat) : (s.atMillis offset).pmu = s.pmu := rfl
@[simp] theorem atMillis_ovu (s : State) (offset : Nat) : (s.atMillis offset).ovu = s.ovu := rfl
@[simp] theorem atMillis_bsc (s : State) (offset : Nat) : (s.atMillis offset).bsc = s.bsc := rfl
@[simp] theorem atMillis_flu (s : State) (offset : Nat) : (s.atMillis offset).flu = s.flu := rfl
@[simp] theorem atMillis_mnp (s : State) (offset : Nat) : (s.atMillis offset).mnp = s.mnp := rfl
@[simp] theorem atMillis_pending (s : State) (offset : Nat) : (s.atMillis offset).pending = s.pending := rfl
@[simp] theorem atMillis_cfl (s : State) (offset : Nat) :
    (s.atMillis offset).cfl = { s.cfl with millis := max s.cfl.millis offset } := rfl
@[simp] theorem handReport_liu (s : State) (p : PointId) (r : PointReport) : (s.handReport p r).liu = s.liu := rfl
@[simp] theorem handReport_ztu (s : State) (p : PointId) (r : PointReport) : (s.handReport p r).ztu = s.ztu := rfl
@[simp] theorem handReport_age (s : State) (p : PointId) (r : PointReport) : (s.handReport p r).age = s.age := rfl
@[simp] theorem handReport_prm (s : State) (p : PointId) (r : PointReport) : (s.handReport p r).prm = s.prm := rfl
@[simp] theorem handReport_ptc (s : State) (p : PointId) (r : PointReport) : (s.handReport p r).ptc = s.ptc := rfl
@[simp] theorem handReport_pmu (s : State) (p : PointId) (r : PointReport) : (s.handReport p r).pmu = s.pmu := rfl
@[simp] theorem handReport_ovu (s : State) (p : PointId) (r : PointReport) : (s.handReport p r).ovu = s.ovu := rfl
@[simp] theorem handReport_bsc (s : State) (p : PointId) (r : PointReport) : (s.handReport p r).bsc = s.bsc := rfl
@[simp] theorem handReport_flu (s : State) (p : PointId) (r : PointReport) : (s.handReport p r).flu = s.flu := rfl
@[simp] theorem handReport_cfl (s : State) (p : PointId) (r : PointReport) : (s.handReport p r).cfl = s.cfl := rfl
@[simp] theorem handReport_mnp (s : State) (p : PointId) (r : PointReport) : (s.handReport p r).mnp = s.mnp := rfl
@[simp] theorem handReport_pending (s : State) (p : PointId) (r : PointReport) : (s.handReport p r).pending = s.pending := rfl
@[simp] theorem handReport_sts (s : State) (p : PointId) (r : PointReport) :
    (s.handReport p r).sts = { s.sts with waiting := s.sts.waiting ++ [{ point := p, report := r }] } := rfl
@[simp] theorem monitorLine_liu (s : State) (x : LineLevel) (n : Nat) : (s.monitorLine x n).liu = s.liu := rfl
@[simp] theorem monitorLine_ztu (s : State) (x : LineLevel) (n : Nat) : (s.monitorLine x n).ztu = s.ztu := rfl
@[simp] theorem monitorLine_age (s : State) (x : LineLevel) (n : Nat) : (s.monitorLine x n).age = s.age := rfl
@[simp] theorem monitorLine_prm (s : State) (x : LineLevel) (n : Nat) : (s.monitorLine x n).prm = s.prm := rfl
@[simp] theorem monitorLine_sts (s : State) (x : LineLevel) (n : Nat) : (s.monitorLine x n).sts = s.sts := rfl
@[simp] theorem monitorLine_ptc (s : State) (x : LineLevel) (n : Nat) : (s.monitorLine x n).ptc = s.ptc := rfl
@[simp] theorem monitorLine_pmu (s : State) (x : LineLevel) (n : Nat) : (s.monitorLine x n).pmu = s.pmu := rfl
@[simp] theorem monitorLine_ovu (s : State) (x : LineLevel) (n : Nat) : (s.monitorLine x n).ovu = s.ovu := rfl
@[simp] theorem monitorLine_flu (s : State) (x : LineLevel) (n : Nat) : (s.monitorLine x n).flu = s.flu := rfl
@[simp] theorem monitorLine_cfl (s : State) (x : LineLevel) (n : Nat) : (s.monitorLine x n).cfl = s.cfl := rfl
@[simp] theorem monitorLine_mnp (s : State) (x : LineLevel) (n : Nat) : (s.monitorLine x n).mnp = s.mnp := rfl
@[simp] theorem monitorLine_pending (s : State) (x : LineLevel) (n : Nat) : (s.monitorLine x n).pending = s.pending := rfl
@[simp] theorem monitorLine_bsc (s : State) (x : LineLevel) (n : Nat) : (s.monitorLine x n).bsc = s.bsc.monitor x n := rfl
/-- The line monitor changes its two timers alone. -/
theorem monitor_frame (c : Bsc) (x : LineLevel) (n : Nat) :
    c.monitor x n = { c with dominant := (c.monitor x n).dominant, recovery := (c.monitor x n).recovery } := by
  cases x <;> rfl

/-! ## The entry replaced read back -/

@[simp] theorem setPoint_point_self (s : State) (p : PointId) (x : PointRecord) : (s.setPoint p x).point p = x :=
  put_getElem_self _ _ _
theorem setPoint_point_ne (s : State) (p : PointId) (x : PointRecord) (j : PointId) (h : p ≠ j) : (s.setPoint p x).point j = s.point j :=
  put_getElem_ne _ _ _ _ h
@[simp] theorem setLine_line_self (s : State) (l : LineId) (x : LineRecord) : (s.setLine l x).line l = x :=
  put_getElem_self _ _ _
theorem setLine_line_ne (s : State) (l : LineId) (x : LineRecord) (j : LineId) (h : l ≠ j) : (s.setLine l x).line j = s.line j :=
  put_getElem_ne _ _ _ _ h
@[simp] theorem setZone_zone_self (s : State) (z : ZoneId) (x : ZoneEntry) : (s.setZone z x).zone z = x :=
  put_getElem_self _ _ _
theorem setZone_zone_ne (s : State) (z : ZoneId) (x : ZoneEntry) (j : ZoneId) (h : z ≠ j) : (s.setZone z x).zone j = s.zone j :=
  put_getElem_ne _ _ _ _ h
@[simp] theorem setPresence_presence_self (s : State) (n : StationId) (x : PresenceEntry) : (s.setPresence n x).presence n = x :=
  put_getElem_self _ _ _
theorem setPresence_presence_ne (s : State) (n : StationId) (x : PresenceEntry) (j : StationId) (h : n ≠ j) : (s.setPresence n x).presence j = s.presence j :=
  put_getElem_ne _ _ _ _ h
@[simp] theorem setGroup_group_self (s : State) (g : GroupId) (x : OverrideEntry) : (s.setGroup g x).group g = x :=
  put_getElem_self _ _ _
theorem setGroup_group_ne (s : State) (g : GroupId) (x : OverrideEntry) (j : GroupId) (h : g ≠ j) : (s.setGroup g x).group j = s.group j :=
  put_getElem_ne _ _ _ _ h
@[simp] theorem setMeasure_measure_self (s : State) (p : PointId) (x : Pmu) : (s.setMeasure p x).measure p = x :=
  put_getElem_self _ _ _
theorem setMeasure_measure_ne (s : State) (p : PointId) (x : Pmu) (j : PointId) (h : p ≠ j) : (s.setMeasure p x).measure j = s.measure j :=
  put_getElem_ne _ _ _ _ h

end Sys2Proof.Machine
end

