-- ==== Sys2Proof/Laws/Moves.lean ====
section
/-! SUPPORT. What the shared operations can do, said once: every operation of the blocks is a chain of moves, each of which
replaces one block as its layer allows, or records a fault, traces, or hands a bulletin to the BSC. A fact that every move
keeps is kept by every operation (`Moves.keeps`); what a layer leaves alone is read off its `May`. -/

namespace Sys2Proof.Machine

/-! ## Moves -/

/-- What a layer of operations may make of each block; the FLU and the BSC are moved by their own operations. -/
structure May where
  liu : Liu → Liu → Prop := Eq
  ztu : Ztu → Ztu → Prop := Eq
  age : Age → Age → Prop := Eq
  prm : Prm → Prm → Prop := Eq
  sts : Sts → Sts → Prop := Eq
  ptc : Ptc → Ptc → Prop := Eq
  pmu : Vector Pmu 16 → Vector Pmu 16 → Prop := Eq
  ovu : Ovu → Ovu → Prop := Eq

/-- A BSC that differs in its sync request bookkeeping alone (R170). -/
def Bsc.sameLink (a b : Bsc) : Prop :=
  b = { a with syncDue := b.syncDue, holdoff := b.holdoff }

/-- Every group of reports on the way is still on the way, with the reports that its event has handed since behind it (R177). -/
def stillOnWay (a b : List (List FaultReport)) : Prop :=
  ∀ group ∈ a, ∃ more, group ++ more ∈ b

/-- Groups on the way stay on the way. -/
theorem stillOnWay_refl (a : List (List FaultReport)) : stillOnWay a a :=
  fun group h => ⟨[], by simpa using h⟩

/-- Staying on the way chains. -/
theorem stillOnWay_trans {a b c : List (List FaultReport)} (h : stillOnWay a b) (k : stillOnWay b c) : stillOnWay a c := by
  intro group hg
  obtain ⟨more, hm⟩ := h group hg
  obtain ⟨rest, hr⟩ := k _ hm
  exact ⟨more ++ rest, by simpa using hr⟩

/-- A chain of moves that a layer allows. -/
inductive Moves (m : May) : State → State → Prop where
  | refl (s : State) : Moves m s s
  | trans {s t u : State} : Moves m s t → Moves m t u → Moves m s u
  | liu (s : State) (x : Liu) : m.liu s.liu x → Moves m s (s.withLiu x)
  | ztu (s : State) (x : Ztu) : m.ztu s.ztu x → Moves m s (s.withZtu x)
  | age (s : State) (x : Age) : m.age s.age x → Moves m s (s.withAge x)
  | prm (s : State) (x : Prm) : m.prm s.prm x → Moves m s (s.withPrm x)
  | sts (s : State) (x : Sts) : m.sts s.sts x → Moves m s (s.withSts x)
  | ptc (s : State) (x : Ptc) : m.ptc s.ptc x → Moves m s (s.withPtc x)
  | pmu (s : State) (x : Vector Pmu 16) : m.pmu s.pmu x → Moves m s (s.withPmu x)
  | ovu (s : State) (x : Ovu) : m.ovu s.ovu x → Moves m s (s.withOvu x)
  | sync (s : State) (x : Bsc) : s.bsc.sameLink x → Moves m s (s.withBsc x)
  | onset (s : State) (k : FaultKind) (j : Byte) (d : Detail) (b : Bool) : Moves m s (s.recordOnset k j d b)
  | clear (s : State) (k : FaultKind) (j : Byte) : Moves m s (s.recordClear k j)
  | trace (s : State) (k : TraceKind) (j v w : Byte) : Moves m s (s.trace k j v w)
  | wait (s : State) (x : List (List FaultReport)) : stillOnWay s.flu.waiting x →
    Moves m s (s.withFlu { s.flu with waiting := x })
  | hand (s : State) (b : Bulletin) : Moves m s (s.handBulletin b).1

/-- A layer that allows at least what another allows. -/
structure May.le (m n : May) : Prop where
  liu : ∀ a b, m.liu a b → n.liu a b
  ztu : ∀ a b, m.ztu a b → n.ztu a b
  age : ∀ a b, m.age a b → n.age a b
  prm : ∀ a b, m.prm a b → n.prm a b
  sts : ∀ a b, m.sts a b → n.sts a b
  ptc : ∀ a b, m.ptc a b → n.ptc a b
  pmu : ∀ a b, m.pmu a b → n.pmu a b
  ovu : ∀ a b, m.ovu a b → n.ovu a b

/-- A chain of a layer is a chain of any layer that allows as much. -/
theorem Moves.mono {m n : May} (h : m.le n) {s t : State} (c : Moves m s t) : Moves n s t := by
  induction c with
  | refl => exact .refl _
  | trans _ _ i j => exact .trans i j
  | liu s x e => exact .liu s x (h.liu _ _ e)
  | ztu s x e => exact .ztu s x (h.ztu _ _ e)
  | age s x e => exact .age s x (h.age _ _ e)
  | prm s x e => exact .prm s x (h.prm _ _ e)
  | sts s x e => exact .sts s x (h.sts _ _ e)
  | ptc s x e => exact .ptc s x (h.ptc _ _ e)
  | pmu s x e => exact .pmu s x (h.pmu _ _ e)
  | ovu s x e => exact .ovu s x (h.ovu _ _ e)
  | sync s x e => exact .sync s x e
  | onset s k j d b => exact .onset s k j d b
  | clear s k j => exact .clear s k j
  | trace s k j v w => exact .trace s k j v w
  | wait s x e => exact .wait s x e
  | hand s b => exact .hand s b

/-! ## What the primitive moves leave -/

/-- A trace entry changes the FLU alone. -/
theorem trace_frame (s : State) (k : TraceKind) (j v w : Byte) :
    s.trace k j v w = s.withFlu (s.trace k j v w).flu := rfl

/-- An onset recorded changes the FLU alone. -/
theorem recordOnset_frame (s : State) (k : FaultKind) (j : Byte) (d : Detail) (b : Bool) :
    s.recordOnset k j d b = s.withFlu (s.recordOnset k j d b).flu := by
  unfold State.recordOnset; split <;> rfl

/-- A clear recorded changes the FLU alone. -/
theorem recordClear_frame (s : State) (k : FaultKind) (j : Byte) :
    s.recordClear k j = s.withFlu (s.recordClear k j).flu := by
  unfold State.recordClear; split <;> rfl

/-- A bulletin handed changes the BSC alone. -/
theorem handBulletin_frame (s : State) (b : Bulletin) :
    (s.handBulletin b).1 = s.withBsc (s.handBulletin b).1.bsc := by
  unfold State.handBulletin; split <;> rfl

/-- A bulletin accepted changes the Transmit Queue and the mark of a replaced VIEW alone (R163 to R165). -/
theorem accept_frame (c : Bsc) (b : Bulletin) (now : Nat) :
    (c.accept b now).1 = { c with queue := (c.accept b now).1.queue, attempt := (c.accept b now).1.attempt } := by
  unfold Bsc.accept
  split
  · rfl
  · split
    · rfl
    · split
      · rfl
      · split <;> rfl

/-- A fact about the state that every move of a layer keeps is kept by a chain of them. -/
theorem Moves.keeps {m : May} {P : State → Prop}
    (liu : ∀ s x, m.liu s.liu x → P s → P (s.withLiu x)) (ztu : ∀ s x, m.ztu s.ztu x → P s → P (s.withZtu x))
    (age : ∀ s x, m.age s.age x → P s → P (s.withAge x)) (prm : ∀ s x, m.prm s.prm x → P s → P (s.withPrm x))
    (sts : ∀ s x, m.sts s.sts x → P s → P (s.withSts x)) (ptc : ∀ s x, m.ptc s.ptc x → P s → P (s.withPtc x))
    (pmu : ∀ s x, m.pmu s.pmu x → P s → P (s.withPmu x)) (ovu : ∀ s x, m.ovu s.ovu x → P s → P (s.withOvu x))
    (sync : ∀ s x, s.bsc.sameLink x → P s → P (s.withBsc x))
    (onset : ∀ s k j d b, P s → P (s.recordOnset k j d b)) (clear : ∀ s k j, P s → P (s.recordClear k j))
    (trace : ∀ s k j v w, P s → P (s.trace k j v w))
    (wait : ∀ s x, stillOnWay s.flu.waiting x → P s → P (s.withFlu { s.flu with waiting := x })) (hand : ∀ s b, P s → P (s.handBulletin b).1)
    {s t : State} (c : Moves m s t) : P s → P t := by
  induction c with
  | refl => exact id
  | trans _ _ i j => exact fun h => j (i h)
  | liu s x e => exact liu s x e
  | ztu s x e => exact ztu s x e
  | age s x e => exact age s x e
  | prm s x e => exact prm s x e
  | sts s x e => exact sts s x e
  | ptc s x e => exact ptc s x e
  | pmu s x e => exact pmu s x e
  | ovu s x e => exact ovu s x e
  | sync s x e => exact sync s x e
  | onset s k j d b => exact onset s k j d b
  | clear s k j => exact clear s k j
  | trace s k j v w => exact trace s k j v w
  | wait s x e => exact wait s x e
  | hand s b => exact hand s b

/-- A layer whose permissions can be chained. -/
structure May.Chains (m : May) : Prop where
  liu : (∀ a, m.liu a a) ∧ ∀ a b c, m.liu a b → m.liu b c → m.liu a c
  ztu : (∀ a, m.ztu a a) ∧ ∀ a b c, m.ztu a b → m.ztu b c → m.ztu a c
  age : (∀ a, m.age a a) ∧ ∀ a b c, m.age a b → m.age b c → m.age a c
  prm : (∀ a, m.prm a a) ∧ ∀ a b c, m.prm a b → m.prm b c → m.prm a c
  sts : (∀ a, m.sts a a) ∧ ∀ a b c, m.sts a b → m.sts b c → m.sts a c
  ptc : (∀ a, m.ptc a a) ∧ ∀ a b c, m.ptc a b → m.ptc b c → m.ptc a c
  pmu : (∀ a, m.pmu a a) ∧ ∀ a b c, m.pmu a b → m.pmu b c → m.pmu a c
  ovu : (∀ a, m.ovu a a) ∧ ∀ a b c, m.ovu a b → m.ovu b c → m.ovu a c

/-- What every operation keeps of the FLU: the severities and the faults whose onsets are late stay, the first records, the sets,
the latch and FAULT-TABLE-FULL lose nothing, and the reports on the way stay there (R177 to R180). -/
structure Flu.remembered (a b : Flu) : Prop where
  severities : b.severities = a.severities
  late : b.late = a.late
  waiting : stillOnWay a.waiting b.waiting
  firstCritical : ∀ r, a.firstCritical = some r → b.firstCritical = some r
  firstTrouble : ∀ r, a.firstTrouble = some r → b.firstTrouble = some r
  nextCritical : ∀ k, has a.nextCritical k = true → has b.nextCritical k = true
  nextTrouble : ∀ k, has a.nextTrouble k = true → has b.nextTrouble k = true
  noteSeen : ∀ k, has a.noteSeen k = true → has b.noteSeen k = true
  latch : a.latch = true → b.latch = true
  tableFull : a.tableFull = true → b.tableFull = true

/-- An FLU keeps what it holds. -/
theorem Flu.remembered_refl (a : Flu) : a.remembered a :=
  ⟨rfl, rfl, stillOnWay_refl _, fun _ h => h, fun _ h => h, fun _ h => h, fun _ h => h, fun _ h => h, id, id⟩

/-- What is kept twice is kept. -/
theorem Flu.remembered_trans {a b c : Flu} (h : a.remembered b) (k : b.remembered c) : a.remembered c where
  severities := k.severities.trans h.severities
  late := k.late.trans h.late
  waiting := stillOnWay_trans h.waiting k.waiting
  firstCritical := fun r e => k.firstCritical r (h.firstCritical r e)
  firstTrouble := fun r e => k.firstTrouble r (h.firstTrouble r e)
  nextCritical := fun r e => k.nextCritical r (h.nextCritical r e)
  nextTrouble := fun r e => k.nextTrouble r (h.nextTrouble r e)
  noteSeen := fun r e => k.noteSeen r (h.noteSeen r e)
  latch := fun e => k.latch (h.latch e)
  tableFull := fun e => k.tableFull (h.tableFull e)

/-- An FLU that differs in the table, the lines, the trace, the latch set and the reports on the way grown keeps what it holds. -/
theorem Flu.remembered_of (a b : Flu) (w : stillOnWay a.waiting b.waiting) (l : a.latch = true → b.latch = true)
    (f : a.tableFull = true → b.tableFull = true)
    (e : b = { a with waiting := b.waiting, latch := b.latch, tableFull := b.tableFull, active := b.active, trace := b.trace,
                      troubleLine := b.troubleLine, criticalLine := b.criticalLine, writePos := b.writePos,
                      nextSerial := b.nextSerial }) : a.remembered b := by
  refine ⟨?_, ?_, w, ?_, ?_, ?_, ?_, ?_, l, f⟩ <;> (rw [e]; try exact fun _ h => h)

/-- A first record filled, or the kind joined to a set, keeps what the FLU holds (R179, R180). -/
theorem Flu.remember_remembered (f : Flu) (v : Severity) (r : FirstRecord) : f.remembered (f.remember v r) := by
  have grows (x : KindSet) (k : Nat) (h : has x k = true) : has (insert x r.kind.code) k = true := by
    simp only [has, insert, BitVec.getLsbD_or] at h ⊢
    simp [h]
  unfold Flu.remember
  split
  · exact f.remembered_refl
  · exact ⟨rfl, rfl, stillOnWay_refl _, fun _ h => h, fun _ h => h, fun _ h => h, fun _ h => h, grows _, id, id⟩
  · split
    · next e => exact ⟨rfl, rfl, stillOnWay_refl _, fun _ h => h, fun _ h => by simp [e] at h, fun _ h => h, fun _ h => h,
        fun _ h => h, id, id⟩
    · exact ⟨rfl, rfl, stillOnWay_refl _, fun _ h => h, fun _ h => h, fun _ h => h, grows _, fun _ h => h, id, id⟩
  · split
    · next e => exact ⟨rfl, rfl, stillOnWay_refl _, fun _ h => by simp [e] at h, fun _ h => h, fun _ h => h, fun _ h => h,
        fun _ h => h, id, id⟩
    · exact ⟨rfl, rfl, stillOnWay_refl _, fun _ h => h, fun _ h => h, grows _, fun _ h => h, fun _ h => h, id, id⟩

/-- An entry made keeps what the FLU holds (R178, R180). -/
theorem Flu.enter_remembered (f : Flu) (e : FaultEntry) (momentary : Bool) : f.remembered (f.enter e momentary) := by
  unfold Flu.enter
  repeat' split
  · exact Flu.remembered_of _ _ (stillOnWay_refl _) (fun h => by simp [h]) id rfl
  · exact Flu.remembered_of _ _ (stillOnWay_refl _) (fun _ => rfl) (fun _ => rfl) rfl
  · exact Flu.remembered_of _ _ (stillOnWay_refl _) id id rfl

/-- An onset recorded keeps what the FLU holds. -/
theorem recordOnset_remembered (s : State) (k : FaultKind) (j : Byte) (d : Detail) (b : Bool) :
    s.flu.remembered (s.recordOnset k j d b).flu := by
  unfold State.recordOnset
  split
  · exact Flu.remembered_trans (Flu.enter_remembered _ _ _) (Flu.remembered_trans (Flu.remember_remembered _ _ _)
      (Flu.remembered_of _ _ (stillOnWay_refl _) id id rfl))
  · exact Flu.remembered_refl _

/-- A clear recorded keeps what the FLU holds but the entry. -/
theorem recordClear_remembered (s : State) (k : FaultKind) (j : Byte) : s.flu.remembered (s.recordClear k j).flu := by
  unfold State.recordClear
  split
  · exact Flu.remembered_of _ _ (stillOnWay_refl _) id id rfl
  · exact Flu.remembered_refl _

/-- What a chain of moves of a layer has made of each block; the configuration and timebase, the maintenance port and the
queue of commands stay, and so do the Receive FIFO, the bulletins handed and the line's condition. -/
structure Within (m : May) (s t : State) : Prop where
  liu : m.liu s.liu t.liu
  ztu : m.ztu s.ztu t.ztu
  age : m.age s.age t.age
  prm : m.prm s.prm t.prm
  sts : m.sts s.sts t.sts
  ptc : m.ptc s.ptc t.ptc
  pmu : m.pmu s.pmu t.pmu
  ovu : m.ovu s.ovu t.ovu
  cfl : t.cfl = s.cfl
  mnp : t.mnp = s.mnp
  pending : t.pending = s.pending
  fifo : t.bsc.fifo = s.bsc.fifo
  handed : t.bsc.handed = s.bsc.handed
  linkStuck : t.bsc.linkStuck = s.bsc.linkStuck
  flu : s.flu.remembered t.flu

/-- A chain of moves stays within its layer. -/
theorem Moves.within {m : May} (r : m.Chains) {s t : State} (c : Moves m s t) : Within m s t := by
  have still (s u : State) (f : Flu) (hs : s.flu.remembered f) (e : u = s.withFlu f) : Within m s u := by
    subst e
    exact ⟨r.liu.1 _, r.ztu.1 _, r.age.1 _, r.prm.1 _, r.sts.1 _, r.ptc.1 _, r.pmu.1 _, r.ovu.1 _, rfl, rfl, rfl, rfl, rfl,
      rfl, hs⟩
  have same (s : State) : s.flu.remembered s.flu := Flu.remembered_refl _
  induction c with
  | refl s => exact still s s s.flu (same s) rfl
  | trans _ _ i j =>
    exact ⟨r.liu.2 _ _ _ i.liu j.liu, r.ztu.2 _ _ _ i.ztu j.ztu, r.age.2 _ _ _ i.age j.age, r.prm.2 _ _ _ i.prm j.prm,
      r.sts.2 _ _ _ i.sts j.sts, r.ptc.2 _ _ _ i.ptc j.ptc, r.pmu.2 _ _ _ i.pmu j.pmu, r.ovu.2 _ _ _ i.ovu j.ovu,
      j.cfl.trans i.cfl, j.mnp.trans i.mnp, j.pending.trans i.pending, j.fifo.trans i.fifo, j.handed.trans i.handed,
      j.linkStuck.trans i.linkStuck, Flu.remembered_trans i.flu j.flu⟩
  | liu s x e =>
    exact ⟨e, r.ztu.1 _, r.age.1 _, r.prm.1 _, r.sts.1 _, r.ptc.1 _, r.pmu.1 _, r.ovu.1 _, rfl, rfl, rfl, rfl, rfl, rfl,
      same s⟩
  | ztu s x e =>
    exact ⟨r.liu.1 _, e, r.age.1 _, r.prm.1 _, r.sts.1 _, r.ptc.1 _, r.pmu.1 _, r.ovu.1 _, rfl, rfl, rfl, rfl, rfl, rfl,
      same s⟩
  | age s x e =>
    exact ⟨r.liu.1 _, r.ztu.1 _, e, r.prm.1 _, r.sts.1 _, r.ptc.1 _, r.pmu.1 _, r.ovu.1 _, rfl, rfl, rfl, rfl, rfl, rfl,
      same s⟩
  | prm s x e =>
    exact ⟨r.liu.1 _, r.ztu.1 _, r.age.1 _, e, r.sts.1 _, r.ptc.1 _, r.pmu.1 _, r.ovu.1 _, rfl, rfl, rfl, rfl, rfl, rfl,
      same s⟩
  | sts s x e =>
    exact ⟨r.liu.1 _, r.ztu.1 _, r.age.1 _, r.prm.1 _, e, r.ptc.1 _, r.pmu.1 _, r.ovu.1 _, rfl, rfl, rfl, rfl, rfl, rfl,
      same s⟩
  | ptc s x e =>
    exact ⟨r.liu.1 _, r.ztu.1 _, r.age.1 _, r.prm.1 _, r.sts.1 _, e, r.pmu.1 _, r.ovu.1 _, rfl, rfl, rfl, rfl, rfl, rfl,
      same s⟩
  | pmu s x e =>
    exact ⟨r.liu.1 _, r.ztu.1 _, r.age.1 _, r.prm.1 _, r.sts.1 _, r.ptc.1 _, e, r.ovu.1 _, rfl, rfl, rfl, rfl, rfl, rfl,
      same s⟩
  | ovu s x e =>
    exact ⟨r.liu.1 _, r.ztu.1 _, r.age.1 _, r.prm.1 _, r.sts.1 _, r.ptc.1 _, r.pmu.1 _, e, rfl, rfl, rfl, rfl, rfl, rfl,
      same s⟩
  | sync s x e =>
    refine ⟨r.liu.1 _, r.ztu.1 _, r.age.1 _, r.prm.1 _, r.sts.1 _, r.ptc.1 _, r.pmu.1 _, r.ovu.1 _, rfl, rfl, rfl, ?_, ?_, ?_,
      same s⟩ <;> (simp only [withBsc_bsc]; rw [e])
  | onset s k j d b => exact still s _ _ (recordOnset_remembered s k j d b) (recordOnset_frame s k j d b)
  | clear s k j => exact still s _ _ (recordClear_remembered s k j) (recordClear_frame s k j)
  | trace s k j v w =>
    exact still s _ (s.trace k j v w).flu (Flu.remembered_of _ _ (stillOnWay_refl _) id id rfl) (trace_frame s k j v w)
  | wait s x e => exact still s _ { s.flu with waiting := x } (Flu.remembered_of _ _ e id id rfl) rfl
  | hand s b =>
    rw [handBulletin_frame]
    refine ⟨r.liu.1 _, r.ztu.1 _, r.age.1 _, r.prm.1 _, r.sts.1 _, r.ptc.1 _, r.pmu.1 _, r.ovu.1 _, rfl, rfl, rfl, ?_, ?_, ?_,
      same s⟩ <;>
    · simp only [withBsc_bsc, State.handBulletin]
      split
      · simp only [withBsc_bsc]; rw [accept_frame]
      · rfl

/-! ## Chains over lists -/

/-- An operation repeated over a list is a chain, where each repetition is one. -/
theorem Moves.sweep {α : Type} {m : May} (items : List α) (f : State → α → State) (h : ∀ t x, Moves m t (f t x)) (s : State) :
    Moves m s (sweep items f s) := by
  unfold Machine.sweep
  induction items generalizing s with
  | nil => exact .refl _
  | cons x rest ih => exact .trans (h s x) (ih (f s x))

end Sys2Proof.Machine
end

