-- ==== Sys2Proof/Laws/Faults.lean ====
section
/-! SUPPORT. What reports, bulletins queued and VIEWs can do: chains of moves of every layer. -/

namespace Sys2Proof.Machine

variable {m : May}

/-- A notice queued, with the report of one lost, is a chain of moves. -/
theorem queueNotice_moves (s : State) (b : Bulletin) : Moves m s (s.queueNotice b) := by
  have h := Moves.hand (m := m) s b
  unfold State.queueNotice
  split
  · next e => rw [e] at h; exact h
  · next e => rw [e] at h; exact .trans h (.onset _ _ _ _ _)

/-- An onset taken with its notice is a chain of moves. -/
theorem takeOnset_moves (s : State) (k : FaultKind) (j : Byte) (d : Detail) (b : Bool) : Moves m s (s.takeOnset k j d b) := by
  unfold State.takeOnset
  dsimp only
  split
  · exact .trans (.onset _ _ _ _ _) (queueNotice_moves _ _)
  · exact .onset _ _ _ _ _

/-- A clear taken with its notice is a chain of moves. -/
theorem takeClear_moves (s : State) (k : FaultKind) (j : Byte) : Moves m s (s.takeClear k j) := by
  unfold State.takeClear
  dsimp only
  split
  · exact .trans (.clear _ _ _) (queueNotice_moves _ _)
  · exact .clear _ _ _

/-- A report taken is a chain of moves. -/
theorem takeFault_moves (s : State) (r : FaultReport) : Moves m s (s.takeFault r) := by
  cases r
  · exact takeOnset_moves _ _ _ _ _
  · exact takeClear_moves _ _ _

/-- A report joined to the last group leaves every group on the way (R177). -/
theorem stillOnWay_behindLast (groups : List (List FaultReport)) (r : FaultReport) : stillOnWay groups (behindLast groups r) := by
  intro group h
  rcases List.eq_nil_or_concat groups with rfl | ⟨init, last, rfl⟩
  · simp at h
  · simp only [List.concat_eq_append, List.mem_append, List.mem_singleton] at h
    rcases h with h | rfl
    · exact ⟨[], by simp [behindLast, h]⟩
    · exact ⟨[r], by simp [behindLast]⟩

/-- A report handed is a chain of moves. -/
theorem reportFault_moves (s : State) (r : FaultReport) (behind : Bool) : Moves m s (s.reportFault r behind) := by
  unfold State.reportFault
  split
  · exact .wait _ _ (stillOnWay_behindLast _ _)
  · split
    · exact .wait _ _ fun group h => ⟨[], by simp [h]⟩
    · exact takeFault_moves _ _

/-- An onset reported is a chain of moves. -/
theorem onset_moves (s : State) (k : FaultKind) (j : Byte) (d : Detail) (b behind : Bool) :
    Moves m s (s.onset k j d b behind) :=
  reportFault_moves _ _ _

/-- A clear reported is a chain of moves. -/
theorem clear_moves (s : State) (k : FaultKind) (j : Byte) : Moves m s (s.clear k j) :=
  reportFault_moves _ _ _

/-- Reports handed together are a chain of moves. -/
theorem handTogether_moves (s : State) (reports : List FaultReport) (behind : Bool) :
    Moves m s (s.handTogether reports behind) := by
  induction reports generalizing s behind with
  | nil => exact .refl _
  | cons r rest ih => exact .trans (reportFault_moves s r behind) (ih _ _)

/-- The reports on the way taken at a tick, once those that arrive have left it, are a chain of moves. -/
theorem takeLateOnsets_moves (s : State) (late : List FaultName) :
    ∃ left, Moves m (s.withFlu { s.flu with late := late, waiting := left }) (s.takeLateOnsets late) :=
  ⟨_, .sweep _ _ takeFault_moves _⟩

/-- An onset that is not late, and behind none, is taken at once. -/
theorem onset_of_not_late (s : State) (k : FaultKind) (j : Byte) (d : Detail) (b : Bool) (h : b = true ∨ s.flu.isLate k j = false) :
    s.onset k j d b = s.takeOnset k j d b := by
  unfold Flu.isLate at h
  rcases h with h | h <;> simp [State.onset, State.reportFault, FaultReport.isLate, h, State.takeFault]

/-- A clear behind no late onset is taken at once. -/
theorem clear_eq_takeClear (s : State) (k : FaultKind) (j : Byte) : s.clear k j = s.takeClear k j := rfl

/-- Whatever is handed behind a late onset waits with it, in its order (R177). -/
theorem handTogether_behind (s : State) (reports : List FaultReport) (groups : List (List FaultReport)) (group : List FaultReport)
    (h : s.flu.waiting = groups ++ [group]) :
    s.handTogether reports true = s.withFlu { s.flu with waiting := groups ++ [group ++ reports] } := by
  induction reports generalizing s group with
  | nil =>
    simp only [State.handTogether, List.append_nil, ← h]
    rfl
  | cons r rest ih =>
    simp only [State.handTogether, State.reportFault, if_true, Bool.true_or]
    rw [ih _ (group ++ [r]) (by simp [behindLast, h])]
    simp

/-- Where no report is on the way, a tick takes none. -/
theorem takeLateOnsets_of_none (s : State) (late : List FaultName) (h : s.flu.waiting = []) :
    s.takeLateOnsets late = s.withFlu { s.flu with late := late } := by
  simp only [State.takeLateOnsets, h]
  rfl

/-- A bulletin queued, with the report of one lost, is a chain of moves. -/
theorem queue_moves (s : State) (b : Bulletin) (behind : Bool) : Moves m s (s.queue b behind) := by
  have h := Moves.hand (m := m) s b
  unfold State.queue
  split
  · next e => rw [e] at h; exact h
  · next e => rw [e] at h; exact .trans h (onset_moves _ _ _ _ _ _)

/-- A PRM that differs in summaries alone. -/
def Prm.sameButSummaries (a b : Prm) : Prop :=
  b = { a with table := b.table } ∧ ∀ n : StationId, b.table[n] = { a.table[n] with summary := (b.table[n]).summary }

/-- The same PRM differs in no more than summaries. -/
theorem Prm.sameButSummaries_refl (a : Prm) : a.sameButSummaries a :=
  ⟨rfl, fun _ => rfl⟩

/-- Differing in summaries alone chains. -/
theorem Prm.sameButSummaries_trans (a b c : Prm) (h : a.sameButSummaries b) (k : b.sameButSummaries c) :
    a.sameButSummaries c := by
  refine ⟨?_, fun n => ?_⟩
  · rw [k.1, h.1]
  · rw [k.2 n, h.2 n]

/-- A summary written leaves the rest of the PRM. -/
theorem setSummary_same (s : State) (n : StationId) (x : Option Summary) :
    s.prm.sameButSummaries (s.setPresence n { s.presence n with summary := x }).prm := by
  refine ⟨rfl, fun k => ?_⟩
  simp only [setPresence_prm, put_getElem]
  split
  · next e => subst e; rfl
  · rfl

/-- The own summary refreshed is a move of a layer that allows summaries. -/
theorem refreshOwnSummary_moves (h : ∀ a b, Prm.sameButSummaries a b → m.prm a b) (s : State) (b : Bulletin) :
    Moves m s (s.refreshOwnSummary b) := by
  unfold State.refreshOwnSummary
  split
  · exact .prm s _ (h _ _ (setSummary_same s _ _))
  · exact .refl _

/-- A VIEW queued is a chain of moves of a layer that allows summaries. -/
theorem queueView_moves (h : ∀ a b, Prm.sameButSummaries a b → m.prm a b) (s : State) : Moves m s s.queueView := by
  have k := Moves.hand (m := m) s s.viewBulletin
  unfold State.queueView
  dsimp only
  split
  · next e =>
    rw [e] at k
    split
    · exact .trans k (refreshOwnSummary_moves h _ _)
    · exact k
  · next e =>
    rw [e] at k
    refine .trans k (.trans ?_ (onset_moves _ _ _ _ _ _))
    split
    · exact .refl _
    · exact refreshOwnSummary_moves h _ _

/-- A SYNC-REQUEST queued at once is a chain of moves. -/
theorem queueSync_moves (s : State) : Moves m s s.queueSync :=
  .trans (.sync s { s.bsc with syncDue := false, holdoff := holdoffTime } rfl) (queue_moves _ _ _)

/-- A SYNC-REQUEST that becomes due is a chain of moves. -/
theorem syncBecomesDue_moves (s : State) (behind : Bool) : Moves m s (s.syncBecomesDue behind) := by
  unfold State.syncBecomesDue
  split
  · exact .trans (.sync s { s.bsc with holdoff := holdoffTime } rfl) (queue_moves _ _ _)
  · exact .sync s { s.bsc with syncDue := true } rfl

/-- A receive loss is a chain of moves. -/
theorem receiveLoss_moves (s : State) (behind : Bool) : Moves m s (s.receiveLoss behind) :=
  .trans (onset_moves _ _ _ _ _ _) (syncBecomesDue_moves _ _)

/-! ## Room in the Transmit Queue -/

/-- A bulletin placed lengthens the queue by one. -/
@[simp] theorem txPlace_length (e : TxEntry) (q : List TxEntry) : (txPlace e q).length = q.length + 1 := by
  induction q with
  | nil => rfl
  | cons x rest ih =>
    unfold txPlace
    split
    · simp [ih]
    · rfl

/-- A bulletin placed is in the queue, and nothing leaves it. -/
theorem mem_txPlace (e x : TxEntry) (q : List TxEntry) : x ∈ txPlace e q ↔ x = e ∨ x ∈ q := by
  induction q with
  | nil => simp [txPlace]
  | cons y rest ih =>
    unfold txPlace
    split
    · simp only [List.mem_cons, ih]
      constructor
      · rintro (h | h | h) <;> simp [h]
      · rintro (h | h | h) <;> simp [h]
    · simp

/-- A displacement takes one entry out, one that is not in an attempt. -/
theorem txDisplace_length (q : List TxEntry) (c : TxEntry) (k : List TxEntry) (h : txDisplace q = some (c, k)) :
    k.length + 1 = q.length ∧ c ∈ q ∧ c.inAttempt = false ∧ ∀ x ∈ k, x ∈ q := by
  induction q generalizing c k with
  | nil => simp [txDisplace] at h
  | cons x rest ih =>
    unfold txDisplace at h
    split at h
    · next c' k' e =>
      obtain ⟨rfl, rfl⟩ : c' = c ∧ x :: k' = k := by simpa using h
      obtain ⟨a, b, d, f⟩ := ih c' k' e
      refine ⟨by simp [a], by simp [b], d, fun y hy => ?_⟩
      rcases List.mem_cons.1 hy with rfl | hy
      · simp
      · simp [f y hy]
    · split at h
      · simp at h
      · next hx =>
        obtain ⟨rfl, rfl⟩ : x = c ∧ rest = k := by simpa using h
        exact ⟨by simp, by simp, by simpa using hx, fun y hy => by simp [hy]⟩

/-- The queue never holds more than 8 bulletins after one is handed to it (R163). -/
theorem accept_length (c : Bsc) (b : Bulletin) (now : Nat) (h : c.queue.length ≤ 8) :
    (c.accept b now).1.queue.length ≤ 8 := by
  unfold Bsc.accept
  split
  · simpa [txReplaceView] using h
  · split
    · next k => simp only [txPlace_length]; omega
    · split
      · exact h
      · next e =>
        split
        · simp only [txPlace_length]; rw [(txDisplace_length _ _ _ e).1]; exact h
        · exact h

end Sys2Proof.Machine
end

