-- ==== Sys2Proof/Laws/Points.lean ====
section
/-! SUPPORT. What the operations of the points can do: the PTC, the PMU and the last reports of the STS, with the FLU and the
BSC. -/

namespace Sys2Proof.Machine

/-- An STS that differs in the reports that wait alone. -/
def Sts.sameButReports (a b : Sts) : Prop :=
  b = { a with waiting := b.waiting }

/-- What an operation on a point may make of each block. -/
def mayPoint : May where
  sts := Sts.sameButReports
  ptc := fun _ _ => True
  pmu := fun _ _ => True

/-- Equality as a permission chains. -/
theorem eq_chains {α : Type} : (∀ a : α, a = a) ∧ ∀ a b c : α, a = b → b = c → a = c :=
  ⟨fun _ => rfl, fun _ _ _ h k => h.trans k⟩

/-- A permission of anything chains. -/
theorem true_chains {α : Type} : (∀ _ : α, True) ∧ ∀ _ _ _ : α, True → True → True :=
  ⟨fun _ => trivial, fun _ _ _ _ _ => trivial⟩

/-- The permissions of point operations chain. -/
theorem mayPoint_chains : mayPoint.Chains where
  liu := eq_chains
  ztu := eq_chains
  age := eq_chains
  prm := eq_chains
  sts := ⟨fun _ => rfl, fun a b c (h : b = _) (k : c = _) => by
    show c = _
    rw [k, h]⟩
  ptc := true_chains
  pmu := true_chains
  ovu := eq_chains

/-- A report handed to the STS is a chain of moves. -/
theorem tellSts_moves (s : State) (p : PointId) : Moves mayPoint s (s.tellSts p) := by
  unfold State.tellSts
  split
  · exact .refl _
  · exact .sts s _ rfl

/-- A point's trace event is a chain of moves of every layer. -/
theorem tracePoint_moves {m : May} (s : State) (p : PointId) : Moves m s (s.tracePoint p) := by
  unfold State.tracePoint
  split
  · exact .refl _
  · exact .trace _ _ _ _ _
  · exact .trace _ _ _ _ _

/-- A point reported is a chain of moves. -/
theorem reportPoint_moves (s : State) (p : PointId) : Moves mayPoint s (s.reportPoint p) :=
  .trans (tellSts_moves s p) (tracePoint_moves _ p)

/-- The reports that wait after a point is reported: those before, and the point's where it has a state (R120, R146). -/
theorem reportPoint_waiting (s : State) (p : PointId) :
    (s.reportPoint p).sts.waiting
      = s.sts.waiting ++ ((s.point p).report.map fun r => { point := p, report := r : WaitingReport }).toList := by
  have h (t : State) : (t.tracePoint p).sts = t.sts := by
    unfold State.tracePoint; split <;> rfl
  unfold State.reportPoint
  rw [h]
  unfold State.tellSts
  split
  · next e => simp [e]
  · next e => simp [e, State.handReport]

/-- A point's faults reported are a chain of moves of every layer. -/
theorem pointFaults_moves {m : May} (s : State) (p : PointId) (clears onsets : List FaultKind) (behind : Bool) :
    Moves m s (s.pointFaults p clears onsets behind) :=
  handTogether_moves _ _ _

/-- A fan's change written and handed on is a chain of moves. -/
theorem commitFan_moves (s : State) (p : PointId) (f : Fan) (c : FanChange) (behind : Bool) :
    Moves mayPoint s (s.commitFan p f c behind) := by
  have h : Moves mayPoint s ((s.withPtc { s.ptc with
    points := put s.ptc.points p (.fan c.record)
    startQueue := queueAfter s.ptc.startQueue p f.state c.record.state }).pointFaults p c.clears c.onsets behind) :=
    .trans (.ptc s _ trivial) (pointFaults_moves _ _ _ _ _)
  unfold State.commitFan
  dsimp only
  split
  · exact .trans h (reportPoint_moves _ _)
  · exact h

/-- The grant test is a chain of moves. -/
theorem grantTest_moves (s : State) (behind : Bool) : Moves mayPoint s (s.grantTest behind) := by
  unfold State.grantTest
  split
  · exact .refl _
  · split
    · exact .trans (.ptc s _ trivial) (.trans (.pmu _ _ trivial) (commitFan_moves _ _ _ _ _))
    · exact .refl _

/-- A fan's change with its grant test is a chain of moves. -/
theorem settleFan_moves (s : State) (p : PointId) (f : Fan) (c : FanChange) : Moves mayPoint s (s.settleFan p f c) := by
  unfold State.settleFan
  dsimp only
  split
  · exact .trans (commitFan_moves _ _ _ _ _) (grantTest_moves _ _)
  · exact commitFan_moves _ _ _ _ _

/-- A damper's change taken by a fan is a chain of moves. -/
theorem fanTakesDamper_moves (s : State) (d : PointId) (entered : Bool) (q : PointId) :
    Moves mayPoint s (s.fanTakesDamper d entered q) := by
  unfold State.fanTakesDamper
  split
  · split
    · exact commitFan_moves _ _ _ _ _
    · exact .refl _
  · exact .refl _

/-- A damper's change taken by the fans is a chain of moves. -/
theorem fansTakeDamper_moves (s : State) (d : PointId) (entered behind : Bool) :
    Moves mayPoint s (s.fansTakeDamper d entered behind) := by
  have h := Moves.sweep (List.finRange 16) (fun t q => State.fanTakesDamper t d entered q)
    (fun t q => fanTakesDamper_moves t d entered q) s
  unfold State.fansTakeDamper
  dsimp only
  split
  · exact .trans h (grantTest_moves _ _)
  · exact h

/-- A damper's change written and handed on is a chain of moves. -/
theorem settleDamper_moves (s : State) (p : PointId) (d : Damper) (c : DamperChange) :
    Moves mayPoint s (s.settleDamper p d c) := by
  have h : Moves mayPoint s ((s.setPoint p (.damper c.record)).pointFaults p c.clears c.onsets) :=
    .trans (.ptc s _ trivial) (pointFaults_moves _ _ _ _ _)
  unfold State.settleDamper
  dsimp only
  split
  · exact h
  · have k := Moves.trans h (reportPoint_moves _ p)
    split
    · exact .trans k (fansTakeDamper_moves _ _ _ _)
    · split
      · exact .trans k (fansTakeDamper_moves _ _ _ _)
      · exact k

/-- A demand change taken by a point is a chain of moves. -/
theorem takeDemand_moves (s : State) (p : PointId) (d : Demand) : Moves mayPoint s (s.takeDemand p d) := by
  unfold State.takeDemand
  split
  · exact .refl _
  · exact settleDamper_moves _ _ _ _
  · exact settleFan_moves _ _ _ _

/-- A proof event taken by a fan is a chain of moves. -/
theorem takeProof_moves (s : State) (p : PointId) (gained : Bool) : Moves mayPoint s (s.takeProof p gained) := by
  unfold State.takeProof
  split
  · exact settleFan_moves _ _ _ _
  · exact .refl _

/-- An edge measured is a chain of moves. -/
theorem measureEdge_moves (s : State) (p : PointId) (level : Level) : Moves mayPoint s (s.measureEdge p level) := by
  have h (x : Pmu) (g : Bool) (c : Prop) [Decidable c] :
      Moves mayPoint s (if c then s.setMeasure p x else (s.setMeasure p x).takeProof p g) := by
    split
    · exact .pmu s _ trivial
    · exact .trans (.pmu s _ trivial) (takeProof_moves _ _ _)
  exact h _ _ _

/-- A pulse edge is a chain of moves, once the time has moved on to it. -/
theorem pulse_moves (s : State) (p : PointId) (level : Level) (offset held : Nat) :
    Moves mayPoint (s.atMillis offset) (s.pulse p level offset held) := by
  unfold State.pulse
  dsimp only
  split
  · exact measureEdge_moves _ _ _
  · exact .refl _

/-- The no-edge expiry is a chain of moves. -/
theorem noEdgeExpiry_moves (s : State) (p : PointId) : Moves mayPoint s (s.noEdgeExpiry p) := by
  unfold State.noEdgeExpiry
  dsimp only
  split
  · exact .trans (.pmu s _ trivial) (takeProof_moves _ _ _)
  · exact .pmu s _ trivial

/-! ## Records -/

/-- The drive of a fan's record entered into a state follows the state (R127). -/
@[simp] theorem Fan.enter_drive (f : Fan) (x : FanState) : (f.enter x).drive = fanDrive x := rfl

/-- The state of a fan's record entered into a state. -/
@[simp] theorem Fan.enter_state (f : Fan) (x : FanState) : (f.enter x).state = x := rfl

/-- A record entered into a state keeps its demand. -/
@[simp] theorem Fan.enter_demand (f : Fan) (x : FanState) : (f.enter x).demand = f.demand := rfl

/-- The drive of a fan agrees with its state (R127). -/
def Fan.driven (f : Fan) : Prop :=
  f.drive = fanDrive f.state

/-- Every change of a fan's record keeps its drive following its state (R127). -/
theorem Fan.changes_driven (f : Fan) (h : f.driven) (d : Demand) (proven : Bool) (p : PointId) :
    (f.takeDemand d proven).record.driven ∧ f.takeProof.record.driven ∧ f.loseProof.record.driven
      ∧ f.proveExpiry.record.driven ∧ f.flowExpiry.record.driven ∧ (f.runDownExpiry proven).record.driven
      ∧ f.trip.record.driven ∧ f.tripClear.record.driven ∧ f.uncommandedExpiry.record.driven ∧ f.grant.record.driven
      ∧ (f.damperLeft p).record.driven ∧ (f.damperEntered p).record.driven := by
  unfold Fan.driven at *
  refine ⟨?_, ?_, ?_, rfl, rfl, ?_, rfl, rfl, h, rfl, ?_, h⟩
  · unfold Fan.takeDemand
    split
    · split
      · exact h
      · unfold Fan.takeStop; split <;> first | rfl | exact h
    · unfold Fan.takeRun; split <;> first | rfl | exact h
  · unfold Fan.takeProof; split <;> first | rfl | exact h
  · unfold Fan.loseProof; dsimp only; split <;> exact h
  · unfold Fan.runDownExpiry; split
    · split <;> rfl
    · split <;> first | rfl | exact h
    · exact h
  · unfold Fan.damperLeft; split <;> first | rfl | exact h

/-- The drive of a damper agrees with its demand (R112). -/
def Damper.driven (d : Damper) : Prop :=
  d.drive = damperDrive d.energiseToShut d.demand

/-- Every change of a damper's record keeps its drive following its demand (R112). -/
theorem Damper.changes_driven (d : Damper) (h : d.driven) (e : Demand) (i : LimitInput) (level : Level) :
    (d.takeDemand e).record.driven ∧ (d.takeLimit i level).record.driven ∧ d.travelExpiry.record.driven := by
  unfold Damper.driven at *
  refine ⟨?_, ?_, ?_⟩
  · unfold Damper.takeDemand
    split
    · exact h
    · split
      · unfold Damper.takeTarget; dsimp only; repeat' split
        all_goals rfl
      · unfold Damper.takeRest; rfl
  · have hs : ∀ d' : Damper, d' = d.setLimit i level →
        d'.drive = damperDrive d'.energiseToShut d'.demand := by
      rintro _ rfl; cases i <;> exact h
    unfold Damper.takeLimit
    generalize d.setLimit i level = d' at hs
    replace hs := hs d' rfl
    dsimp only
    split
    · unfold Damper.targetEvent
      repeat' split
      all_goals first
        | exact hs
        | (unfold Damper.resolve; dsimp only; split <;> exact hs)
    · exact hs
  · unfold Damper.travelExpiry; split <;> exact h

end Sys2Proof.Machine
end

