-- ==== Sys2Proof/Laws/Steps.lean ====
section
/-! SUPPORT. What the operations of the Step Sequencer can do: running a step, and taking a view or a mode. -/

namespace Sys2Proof.Machine

/-- A Scenario Record that differs in the view's step and established flag alone. -/
def Age.sameButStep (a b : Age) : Prop :=
  b = { a with view := { a.view with step := b.view.step, established := b.view.established } }

/-- A Step Completion Table that differs in its completion marks alone. -/
def sameButMarks (a b : Vector StepRow 8) : Prop :=
  ∀ k : Fin 8, b[k] = { a[k] with completion := (b[k]).completion }

/-- An STS with the same programs, views and hold, and the same heard sets: what running steps leaves. -/
def Sts.sameRun (a b : Sts) : Prop :=
  b.programs = a.programs ∧ b.points = a.points ∧ b.frozen = a.frozen ∧ b.viewSettled = a.viewSettled
    ∧ b.epoch = a.epoch ∧ b.scenario = a.scenario ∧ b.phase = a.phase ∧ sameButMarks a.rows b.rows

/-- An STS with the same programs, the same view and the same heard sets: what taking a mode leaves. -/
def Sts.sameView (a b : Sts) : Prop :=
  b.programs = a.programs ∧ b.points = a.points ∧ b.epoch = a.epoch ∧ b.scenario = a.scenario ∧ b.phase = a.phase
    ∧ sameButMarks a.rows b.rows

/-- An STS with the same programs: what taking a view leaves. -/
def Sts.samePrograms (a b : Sts) : Prop :=
  b.programs = a.programs ∧ b.points = a.points

/-- What running a step may make of each block. -/
def mayRun : May where
  age := Age.sameButStep
  prm := Prm.sameButSummaries
  sts := Sts.sameRun
  ptc := fun _ _ => True
  pmu := fun _ _ => True

/-- What taking a mode may make of each block. -/
def mayMode : May where
  age := Age.sameButStep
  prm := Prm.sameButSummaries
  sts := Sts.sameView
  ptc := fun _ _ => True
  pmu := fun _ _ => True

/-- What taking a view may make of each block. -/
def mayView : May where
  age := Age.sameButStep
  prm := Prm.sameButSummaries
  sts := Sts.samePrograms
  ptc := fun _ _ => True
  pmu := fun _ _ => True

/-- The same record differs in no more than its step. -/
theorem Age.sameButStep_refl (a : Age) : a.sameButStep a := rfl

/-- Differing in the step alone chains. -/
theorem Age.sameButStep_trans (a b c : Age) (h : a.sameButStep b) (k : b.sameButStep c) : a.sameButStep c := by
  unfold Age.sameButStep at *
  rw [k, h]

/-- Differing in marks alone chains. -/
theorem sameButMarks_trans (a b c : Vector StepRow 8) (h : sameButMarks a b) (k : sameButMarks b c) : sameButMarks a c :=
  fun i => by rw [k i, h i]

/-- Leaving what running steps leaves chains. -/
theorem Sts.sameRun_trans (a b c : Sts) (h : a.sameRun b) (k : b.sameRun c) : a.sameRun c := by
  obtain ⟨h1, h2, h3, h4, h5, h6, h7, h8⟩ := h
  obtain ⟨k1, k2, k3, k4, k5, k6, k7, k8⟩ := k
  exact ⟨k1.trans h1, k2.trans h2, k3.trans h3, k4.trans h4, k5.trans h5, k6.trans h6, k7.trans h7,
    sameButMarks_trans _ _ _ h8 k8⟩

/-- The permissions of running a step chain. -/
theorem mayRun_chains : mayRun.Chains where
  liu := eq_chains
  ztu := eq_chains
  age := ⟨Age.sameButStep_refl, Age.sameButStep_trans⟩
  prm := ⟨Prm.sameButSummaries_refl, Prm.sameButSummaries_trans⟩
  sts := ⟨fun _ => ⟨rfl, rfl, rfl, rfl, rfl, rfl, rfl, fun _ => rfl⟩, Sts.sameRun_trans⟩
  ptc := true_chains
  pmu := true_chains
  ovu := eq_chains

/-- Leaving what taking a mode leaves chains. -/
theorem Sts.sameView_trans (a b c : Sts) (h : a.sameView b) (k : b.sameView c) : a.sameView c := by
  obtain ⟨h1, h2, h3, h4, h5, h6⟩ := h
  obtain ⟨k1, k2, k3, k4, k5, k6⟩ := k
  exact ⟨k1.trans h1, k2.trans h2, k3.trans h3, k4.trans h4, k5.trans h5, sameButMarks_trans _ _ _ h6 k6⟩

/-- The permissions of taking a mode chain. -/
theorem mayMode_chains : mayMode.Chains where
  liu := eq_chains
  ztu := eq_chains
  age := ⟨Age.sameButStep_refl, Age.sameButStep_trans⟩
  prm := ⟨Prm.sameButSummaries_refl, Prm.sameButSummaries_trans⟩
  sts := ⟨fun _ => ⟨rfl, rfl, rfl, rfl, rfl, fun _ => rfl⟩, Sts.sameView_trans⟩
  ptc := true_chains
  pmu := true_chains
  ovu := eq_chains

/-- The permissions of taking a view chain. -/
theorem mayView_chains : mayView.Chains where
  liu := eq_chains
  ztu := eq_chains
  age := ⟨Age.sameButStep_refl, Age.sameButStep_trans⟩
  prm := ⟨Prm.sameButSummaries_refl, Prm.sameButSummaries_trans⟩
  sts := ⟨fun _ => ⟨rfl, rfl⟩, fun _ _ _ h k => ⟨k.1.trans h.1, k.2.trans h.2⟩⟩
  ptc := true_chains
  pmu := true_chains
  ovu := eq_chains

/-- A point operation is within running a step. -/
theorem mayPoint_le_mayRun : mayPoint.le mayRun where
  liu := fun _ _ h => h
  ztu := fun _ _ h => h
  age := fun a _ h => by cases h; exact Age.sameButStep_refl a
  prm := fun a _ h => by cases h; exact Prm.sameButSummaries_refl a
  sts := fun a b (h : b = _) => by rw [h]; exact ⟨rfl, rfl, rfl, rfl, rfl, rfl, rfl, fun _ => rfl⟩
  ptc := fun _ _ _ => trivial
  pmu := fun _ _ _ => trivial
  ovu := fun _ _ h => h

/-- Running a step is within taking a mode. -/
theorem mayRun_le_mayMode : mayRun.le mayMode where
  liu := fun _ _ h => h
  ztu := fun _ _ h => h
  age := fun _ _ h => h
  prm := fun _ _ h => h
  sts := fun _ _ h => ⟨h.1, h.2.1, h.2.2.2.2.1, h.2.2.2.2.2.1, h.2.2.2.2.2.2.1, h.2.2.2.2.2.2.2⟩
  ptc := fun _ _ _ => trivial
  pmu := fun _ _ _ => trivial
  ovu := fun _ _ h => h

/-- Taking a mode is within taking a view. -/
theorem mayMode_le_mayView : mayMode.le mayView where
  liu := fun _ _ h => h
  ztu := fun _ _ h => h
  age := fun _ _ h => h
  prm := fun _ _ h => h
  sts := fun _ _ h => ⟨h.1, h.2.1⟩
  ptc := fun _ _ _ => trivial
  pmu := fun _ _ _ => trivial
  ovu := fun _ _ h => h

/-- A chain followed by a move of the STS. -/
theorem Moves.thenSts {m : May} {s t : State} {x : Sts} (c : Moves m s t) (h : m.sts t.sts x) : Moves m s (t.withSts x) :=
  .trans c (.sts t x h)

/-- A VIEW queued while running a step. -/
theorem queueView_run (s : State) : Moves mayRun s s.queueView :=
  queueView_moves (fun _ _ h => h) s

/-- An STS changed outside what running steps leaves, and outside its table. -/
theorem sts_run (s : State) (x : Sts) (h : x.programs = s.sts.programs ∧ x.points = s.sts.points ∧ x.frozen = s.sts.frozen
    ∧ x.viewSettled = s.sts.viewSettled ∧ x.epoch = s.sts.epoch ∧ x.scenario = s.sts.scenario ∧ x.phase = s.sts.phase)
    (r : x.rows = s.sts.rows) : Moves mayRun s (s.withSts x) :=
  .sts s x ⟨h.1, h.2.1, h.2.2.1, h.2.2.2.1, h.2.2.2.2.1, h.2.2.2.2.2.1, h.2.2.2.2.2.2, fun k => by rw [r]⟩

/-- The Demand Table written and its changes handed to the points is a chain of moves. -/
theorem writeDemands_moves (s : State) : Moves mayRun s s.writeDemands := by
  unfold State.writeDemands
  dsimp only
  refine .trans ?_ (.sweep _ _ (fun t p => ?_) _)
  · exact sts_run s _ ⟨rfl, rfl, rfl, rfl, rfl, rfl, rfl⟩ rfl
  · split
    · exact .refl _
    · exact (takeDemand_moves _ _ _).mono mayPoint_le_mayRun

/-- The own settlement test is a chain of moves. -/
theorem settlementTest_moves (s : State) : Moves mayRun s s.settlementTest := by
  unfold State.settlementTest
  split
  · exact .trans (sts_run s { s.sts with ownSettled := true, repeatTimer := repeatTime } ⟨rfl, rfl, rfl, rfl, rfl, rfl, rfl⟩ rfl)
      (queue_moves _ _ _)
  · exact .refl _

/-- The stand-down test is a chain of moves. -/
theorem standDownTest_moves (s : State) : Moves mayRun s s.standDownTest := by
  unfold State.standDownTest
  split
  · exact .trans (sts_run s { s.sts with standDownPending := false } ⟨rfl, rfl, rfl, rfl, rfl, rfl, rfl⟩ rfl)
      (.trans (writeDemands_moves _) (settlementTest_moves _))
  · exact .refl _

/-- A report taken is a chain of moves. -/
theorem takeReport_moves (s : State) (w : WaitingReport) : Moves mayRun s (s.takeReport w) := by
  have h : Moves mayRun s (s.withSts { s.sts with reports := put s.sts.reports w.point (some w.report) }).settlementTest :=
    .trans (sts_run s { s.sts with reports := put s.sts.reports w.point (some w.report) }
      ⟨rfl, rfl, rfl, rfl, rfl, rfl, rfl⟩ rfl) (settlementTest_moves _)
  unfold State.takeReport
  dsimp only
  split
  · exact .trans h (standDownTest_moves _)
  · exact h

/-- With no report waiting the STS takes none. -/
@[simp] theorem takeWaiting_none (s : State) (h : s.sts.waiting = []) : s.takeWaiting = s := by
  have e : { s.sts with waiting := [] } = s.sts := by rw [← h]
  unfold State.takeWaiting
  rw [h, e]
  rfl

/-- With no report waiting the STS takes none. -/
@[simp] theorem takeReports_none (s : State) (h : s.sts.waiting = []) : s.takeReports = s := by
  unfold State.takeReports
  rw [takeWaiting_none s h, takeWaiting_none s h]

/-- The waiting reports taken are a chain of moves. -/
theorem takeWaiting_moves (s : State) : Moves mayRun s s.takeWaiting :=
  .trans (sts_run s { s.sts with waiting := [] } ⟨rfl, rfl, rfl, rfl, rfl, rfl, rfl⟩ rfl)
    (.sweep _ _ takeReport_moves _)

/-- The reports taken, with those a stand-down test adds, are a chain of moves. -/
theorem takeReports_moves (s : State) : Moves mayRun s s.takeReports :=
  .trans (takeWaiting_moves _) (takeWaiting_moves _)

/-- The closing tests are a chain of moves. -/
theorem closingTests_moves (s : State) : Moves mayRun s s.closingTests :=
  .trans (takeReports_moves _) (.trans (settlementTest_moves _) (.trans (standDownTest_moves _) (takeReports_moves _)))

/-- A recompute is a chain of moves. -/
theorem recompute_moves (s : State) : Moves mayRun s s.recompute :=
  .trans (writeDemands_moves _) (closingTests_moves _)

/-- A step-started event taken by the AGE is a chain of moves. -/
theorem ageStepStarted_moves (s : State) : Moves mayRun s s.ageStepStarted := by
  unfold State.ageStepStarted
  split
  · refine .trans ?_ (queueView_run _)
    exact .age s _ (rfl : _ = _)
  · exact .refl _

/-- An established event taken by the AGE is a chain of moves. -/
theorem ageEstablished_moves (s : State) : Moves mayRun s s.ageEstablished := by
  unfold State.ageEstablished
  split
  · refine .trans ?_ (queueView_run _)
    exact .age s _ (rfl : _ = _)
  · exact .refl _

/-- A row marked is a move. -/
theorem completeRow_moves (s : State) (k : StepId) (c : Completion) : Moves mayRun s (s.completeRow k c) := by
  refine .sts s _ ⟨rfl, rfl, rfl, rfl, rfl, rfl, rfl, fun j => ?_⟩
  simp only [State.row, put_getElem]
  split
  · next e => subst e; rfl
  · rfl

/-- A row marked CAUGHT-UP is a chain of moves. -/
theorem catchUpRow_moves (s : State) (k : StepId) : Moves mayRun s (s.catchUpRow k) := by
  unfold State.catchUpRow
  split
  · exact .trans (completeRow_moves _ _ _) (.trace _ _ _ _ _)
  · exact .refl _

/-- Rows marked CAUGHT-UP are a chain of moves. -/
theorem catchUpRows_moves (s : State) (first last : Nat) : Moves mayRun s (s.catchUpRows first last) :=
  .sweep _ _ catchUpRow_moves s

/-- A step begun is a chain of moves. -/
theorem beginStep_moves (s : State) (k : StepId) : Moves mayRun s (s.beginStep k) := by
  unfold State.beginStep
  dsimp only
  refine .trans ?_ (writeDemands_moves _)
  refine .trans ?_ (.trace _ _ _ _ _)
  refine .trans ?_ (ageStepStarted_moves _)
  exact sts_run s _ ⟨rfl, rfl, rfl, rfl, rfl, rfl, rfl⟩ rfl

/-- A barrier marked is a chain of moves. -/
theorem markBarrier_moves (s : State) : Moves mayRun s s.markBarrier := by
  unfold State.markBarrier
  dsimp only
  refine .trans ?_ (.trace _ _ _ _ _)
  refine .trans (completeRow_moves s s.sts.step .barrier) ?_
  exact sts_run _ _ ⟨rfl, rfl, rfl, rfl, rfl, rfl, rfl⟩ rfl

/-- A scenario established is a chain of moves. -/
theorem establish_moves (s : State) : Moves mayRun s s.establish := by
  unfold State.establish
  refine .trans ?_ (ageEstablished_moves _)
  exact sts_run s _ ⟨rfl, rfl, rfl, rfl, rfl, rfl, rfl⟩ rfl

/-- A chain of steps started is a chain of moves. -/
theorem startStepFuel_moves (fuel : Nat) (s : State) (k : StepId) : Moves mayRun s (State.startStepFuel fuel s k) := by
  induction fuel generalizing s k with
  | zero => exact .refl _
  | succ n ih =>
    unfold State.startStepFuel
    dsimp only
    refine .trans (beginStep_moves s k) ?_
    split
    · split
      · exact .trans (markBarrier_moves _) (.trans (ih _ _) (closingTests_moves _))
      · exact .trans (markBarrier_moves _) (.trans (establish_moves _) (closingTests_moves _))
    · exact closingTests_moves _

/-- A step started is a chain of moves. -/
theorem startStep_moves (s : State) (k : StepId) : Moves mayRun s (s.startStep k) :=
  startStepFuel_moves 9 s k

/-- An advance past a complete step is a chain of moves. -/
theorem advance_moves (s : State) : Moves mayRun s s.advance := by
  unfold State.advance
  split
  · exact startStep_moves _ _
  · exact establish_moves _

/-- The barrier test is a chain of moves. -/
theorem barrierTest_moves (s : State) : Moves mayRun s s.barrierTest := by
  unfold State.barrierTest
  split
  · exact .trans (markBarrier_moves _) (advance_moves _)
  · exact .refl _

/-- A forced step is a chain of moves. -/
theorem forceStep_moves (s : State) : Moves mayRun s s.forceStep := by
  unfold State.forceStep
  dsimp only
  refine .trans ?_ (advance_moves _)
  refine .trans ?_ (.trace _ _ _ _ _)
  refine .trans ?_ (onset_moves _ _ _ _ _ _)
  refine .trans (completeRow_moves s s.sts.step .forced) ?_
  exact sts_run _ _ ⟨rfl, rfl, rfl, rfl, rfl, rfl, rfl⟩ rfl

/-- A step catch-up is a chain of moves. -/
theorem catchUp_moves (s : State) (epoch : Epoch) (scenario : ScenarioId) (t : StepId) (established : Bool) :
    Moves mayRun s (s.catchUp epoch scenario t established) := by
  unfold State.catchUp
  dsimp only
  split
  · exact .refl _
  · split
    · exact .refl _
    · split
      · refine .trans ?_ (recompute_moves _)
        refine .trans ?_ (ageEstablished_moves _)
        refine .trans (catchUpRows_moves s s.sts.step.val t.val) ?_
        exact sts_run _ _ ⟨rfl, rfl, rfl, rfl, rfl, rfl, rfl⟩ rfl
      · exact .trans (catchUpRows_moves s _ _) (startStep_moves _ _)

/-- A peer out of LIVE taken by the STS is a chain of moves. -/
theorem stationLost_moves (s : State) (n : StationId) : Moves mayRun s (s.stationLost n) :=
  .trans (sts_run s { s.sts with expected := remove s.sts.expected n.val } ⟨rfl, rfl, rfl, rfl, rfl, rfl, rfl⟩ rfl)
    (barrierTest_moves _)

/-- A chain of running a step is one of taking a mode. -/
theorem Moves.toMode {s t : State} (c : Moves mayRun s t) : Moves mayMode s t :=
  c.mono mayRun_le_mayMode

/-- A chain of running a step is one of taking a view. -/
theorem Moves.toView {s t : State} (c : Moves mayRun s t) : Moves mayView s t :=
  c.toMode.mono mayMode_le_mayView

/-- A row marked CAUGHT-UP writes the table and the Sequence Trace, and nothing else. -/
theorem catchUpRow_writes (s : State) (k : StepId) : let u := s.catchUpRow k
    u = (s.withSts { s.sts with rows := u.sts.rows }).withFlu
      { s.flu with trace := u.flu.trace, writePos := u.flu.writePos, nextSerial := u.flu.nextSerial } := by
  unfold State.catchUpRow
  split <;> rfl

/-- Rows marked CAUGHT-UP write the table and the Sequence Trace, and nothing else. -/
theorem catchUpRows_writes (s : State) (first last : Nat) : let u := s.catchUpRows first last
    u = (s.withSts { s.sts with rows := u.sts.rows }).withFlu
      { s.flu with trace := u.flu.trace, writePos := u.flu.writePos, nextSerial := u.flu.nextSerial } := by
  unfold State.catchUpRows sweep
  generalize stepsFrom first last = steps
  induction steps generalizing s with
  | nil => rfl
  | cons k rest ih =>
    have h := ih (s.catchUpRow k)
    rw [catchUpRow_writes s k] at h
    rw [List.foldl_cons, catchUpRow_writes s k]
    exact h

/-- Rows from a step to one before it are none. -/
@[simp] theorem catchUpRows_none (s : State) : s.catchUpRows 1 0 = s := rfl

/-- Acting on a phase change writes the stand-down order. -/
@[simp] theorem actOnPhase_sts (s : State) (previous new : Phase) : (s.actOnPhase previous new).sts =
    { s.sts with standDownPending := pendingAfter s.sts.standDownPending previous new } := rfl
@[simp] theorem actOnPhase_age (s : State) (previous new : Phase) : (s.actOnPhase previous new).age = s.age := rfl
@[simp] theorem actOnPhase_prm (s : State) (previous new : Phase) : (s.actOnPhase previous new).prm = s.prm := rfl
@[simp] theorem actOnPhase_ptc (s : State) (previous new : Phase) : (s.actOnPhase previous new).ptc = s.ptc := rfl

/-- Clearing the step state leaves the stand-down order, which the phase change alone moves. -/
@[simp] theorem clearSteps_pending (s : State) (v : View) :
    (s.clearSteps v).sts.standDownPending = s.sts.standDownPending := rfl
@[simp] theorem clearSteps_age (s : State) (v : View) : (s.clearSteps v).age = s.age := rfl
@[simp] theorem clearSteps_prm (s : State) (v : View) : (s.clearSteps v).prm = s.prm := rfl
@[simp] theorem clearSteps_ptc (s : State) (v : View) : (s.clearSteps v).ptc = s.ptc := rfl

/-- A running view that is not established: the step starts first, then the stand-down order is cleared and demand recomputed
(R96). -/
theorem rebuildSteps_running (s : State) (v : View) (h : v.phase = .running) (e : v.established = false) :
    s.rebuildSteps v =
      (((((s.clearSteps v).catchUpRows 1 (v.step.val - 1)).startStep v.step).actOnPhase s.sts.phase .running).recompute) := by
  simp [State.rebuildSteps, State.enterProgram, h, e]

/-- A view change of R96 rebuilds the step state. -/
theorem takeView_rebuilds (s : State) (restart : Bool)
    (h : restart = true ∨ s.age.view.epoch ≠ s.sts.epoch ∨ s.age.view.scenario ≠ s.sts.scenario) :
    s.takeView restart = s.rebuildSteps s.age.view := by
  unfold State.takeView
  exact if_pos (by simpa [or_assoc] using h)

/-- The phase change acted on is a move. -/
theorem actOnPhase_moves (s : State) (previous new : Phase) : Moves mayRun s (s.actOnPhase previous new) :=
  sts_run s _ ⟨rfl, rfl, rfl, rfl, rfl, rfl, rfl⟩ rfl

/-- The step state cleared is a move. -/
theorem clearSteps_moves (s : State) (v : View) : Moves mayView s (s.clearSteps v) :=
  .sts s _ ⟨rfl, rfl⟩

/-- A program entered is a chain of moves. -/
theorem enterProgram_moves (s : State) (v : View) : Moves mayView s (s.enterProgram v) := by
  unfold State.enterProgram
  dsimp only
  refine .trans (clearSteps_moves s v) ?_
  split
  · split
    · refine .trans ?_ (ageEstablished_moves _).toView
      exact .thenSts (catchUpRows_moves _ _ _).toView ⟨rfl, rfl⟩
    · exact .trans (catchUpRows_moves _ _ _).toView (startStep_moves _ _).toView
  · exact .sts _ _ ⟨rfl, rfl⟩

/-- A view change rebuilding the step state is a chain of moves. -/
theorem rebuildSteps_moves (s : State) (v : View) : Moves mayView s (s.rebuildSteps v) :=
  .trans (enterProgram_moves s v) (.trans (actOnPhase_moves _ _ _).toView (recompute_moves _).toView)

/-- A view taken by the STS is a chain of moves. -/
theorem takeView_moves (s : State) (restart : Bool) : Moves mayView s (s.takeView restart) := by
  unfold State.takeView
  dsimp only
  split
  · exact rebuildSteps_moves _ _
  · have h : Moves mayView s ((s.withSts { s.sts with phase := s.age.view.phase }).actOnPhase s.sts.phase s.age.view.phase) :=
      .trans (.sts s { s.sts with phase := s.age.view.phase } ⟨rfl, rfl⟩) (actOnPhase_moves _ _ _).toView
    split
    · exact .trans h (catchUp_moves _ _ _ _ _).toView
    · exact .trans h (recompute_moves _).toView

/-- The end of the joining hold is a chain of moves. -/
theorem settleView_moves (s : State) : Moves mayMode s s.settleView := by
  unfold State.settleView
  dsimp only
  split
  · exact .refl _
  · have h : Moves mayMode s (s.withSts { s.sts with viewSettled := true }).writeDemands :=
      .trans (.sts s { s.sts with viewSettled := true } ⟨rfl, rfl, rfl, rfl, rfl, fun _ => rfl⟩) (writeDemands_moves _).toMode
    refine .trans h ?_
    generalize (s.withSts { s.sts with viewSettled := true }).writeDemands = t
    refine .trans ?_ (closingTests_moves _).toMode
    split
    · exact (forceStep_moves _).toMode
    · exact (barrierTest_moves _).toMode

/-- A mode taken by the STS is a chain of moves. -/
theorem takeMode_moves (s : State) : Moves mayMode s s.takeMode := by
  unfold State.takeMode
  split
  · exact .trans (.sts s { s.sts with viewSettled := false } ⟨rfl, rfl, rfl, rfl, rfl, fun _ => rfl⟩) (recompute_moves _).toMode
  · have h : Moves mayMode s s.freeze := .sts s _ ⟨rfl, rfl, rfl, rfl, rfl, fun _ => rfl⟩
    generalize s.freeze = t at h ⊢
    refine .trans ?_ (recompute_moves _).toMode
    exact .thenSts h ⟨rfl, rfl, rfl, rfl, rfl, fun _ => rfl⟩
  · exact .trans (settleView_moves s) (recompute_moves s.settleView).toMode
  · exact (recompute_moves s).toMode

/-- A STEP-DONE taken by the STS is a chain of moves. -/
theorem takeStepDone_moves (s : State) (sender : StationId) (epoch : Epoch) (scenario step outcome : Byte) :
    Moves mayView s (s.takeStepDone sender epoch scenario step outcome) := by
  unfold State.takeStepDone
  split
  · split
    · exact .refl _
    · dsimp only
      split
      · refine .trans ?_ (barrierTest_moves _).toView
        exact .sts s _ ⟨rfl, rfl⟩
      · exact .sts s _ ⟨rfl, rfl⟩
  · exact .refl _

end Sys2Proof.Machine
end

