-- ==== Sys2Proof/Laws/Agreement.lean ====
section
/-! SUPPORT. What the operations of the Zone Table, the detection lines' conditions and the Agreement Engine can do. -/

namespace Sys2Proof.Machine

/-- An LIU with the same lines and requests: only the session and the conditions handed differ. -/
def Liu.sameLines (a b : Liu) : Prop :=
  b.lines = a.lines ∧ b.commands = a.commands ∧ b.lastRequested = a.lastRequested

/-- A Zone Table with the same configuration and copy states, and the same rotation. -/
def Ztu.sameCopies (a b : Ztu) : Prop :=
  (∀ z : ZoneId, (b.zones[z]).cfg = (a.zones[z]).cfg ∧ (b.zones[z]).copy = (a.zones[z]).copy) ∧ b.rotation = a.rotation

/-- What an operation of the agreement may make of each block. -/
def mayAgree : May where
  liu := Liu.sameLines
  ztu := Ztu.sameCopies
  age := fun _ _ => True
  prm := Prm.sameButSummaries
  sts := Sts.samePrograms
  ptc := fun _ _ => True
  pmu := fun _ _ => True

/-- The permissions of the agreement chain. -/
theorem mayAgree_chains : mayAgree.Chains where
  liu := ⟨fun _ => ⟨rfl, rfl, rfl⟩, fun _ _ _ h k => ⟨k.1.trans h.1, k.2.1.trans h.2.1, k.2.2.trans h.2.2⟩⟩
  ztu := ⟨fun _ => ⟨fun _ => ⟨rfl, rfl⟩, rfl⟩, fun _ _ _ h k =>
    ⟨fun z => ⟨(k.1 z).1.trans (h.1 z).1, (k.1 z).2.trans (h.1 z).2⟩, k.2.trans h.2⟩⟩
  age := true_chains
  prm := ⟨Prm.sameButSummaries_refl, Prm.sameButSummaries_trans⟩
  sts := ⟨fun _ => ⟨rfl, rfl⟩, fun _ _ _ h k => ⟨k.1.trans h.1, k.2.trans h.2⟩⟩
  ptc := true_chains
  pmu := true_chains
  ovu := eq_chains

/-- Taking a view is within the agreement. -/
theorem mayView_le_mayAgree : mayView.le mayAgree where
  liu := fun a _ h => by cases h; exact ⟨rfl, rfl, rfl⟩
  ztu := fun a _ h => by cases h; exact ⟨fun _ => ⟨rfl, rfl⟩, rfl⟩
  age := fun _ _ _ => trivial
  prm := fun _ _ h => h
  sts := fun _ _ h => h
  ptc := fun _ _ _ => trivial
  pmu := fun _ _ _ => trivial
  ovu := fun _ _ h => h

/-- A chain of taking a view is one of the agreement. -/
theorem Moves.toAgree {s t : State} (c : Moves mayView s t) : Moves mayAgree s t :=
  c.mono mayView_le_mayAgree

/-- A chain followed by a move of the AGE. -/
theorem Moves.thenAge {m : May} {s t : State} {x : Age} (c : Moves m s t) (h : m.age t.age x) : Moves m s (t.withAge x) :=
  .trans c (.age t x h)

/-- A VIEW queued by the agreement. -/
theorem queueView_agree (s : State) : Moves mayAgree s s.queueView :=
  queueView_moves (fun _ _ h => h) s

/-- The AGE replaced is a move of the agreement. -/
theorem withAge_agree (s : State) (x : Age) : Moves mayAgree s (s.withAge x) :=
  .age s x trivial

/-! ## Notices -/

/-- An operation with notices, repeated over a list, is a chain where each repetition is one. -/
theorem Moves.sweepNotices {α : Type} {m : May} (items : List α) (f : State → α → State × List Notice)
    (h : ∀ t x, Moves m t (f t x).1) (s : State) : Moves m s (sweepNotices items f s).1 := by
  unfold Machine.sweepNotices
  have key : ∀ (l : List α) (r : State × List Notice), Moves m s r.1 →
      Moves m s (l.foldl (fun r i => ((f r.1 i).1, r.2 ++ (f r.1 i).2)) r).1 := by
    intro l
    induction l with
    | nil => intro r hr; exact hr
    | cons x rest ih => intro r hr; exact ih _ (.trans hr (h _ _))
  exact key items (s, []) (.refl _)

/-! ## The Zone Table and the conditions of zones -/

/-- A condition change taken by the ZTU is a chain of moves. -/
theorem takeCondition_moves (s : State) (z : ZoneId) (c : Condition) : Moves mayAgree s (s.takeCondition z c).1 := by
  unfold State.takeCondition
  dsimp only
  split
  · refine .trans ?_ (queue_moves _ _ _)
    refine .ztu s _ ⟨fun y => ?_, rfl⟩
    simp only [put_getElem]
    split
    · next e => subst e; exact ⟨rfl, rfl⟩
    · exact ⟨rfl, rfl⟩
  · exact .refl _

/-- A zone derived anew is a chain of moves. -/
theorem rederive_moves (s : State) (z : ZoneId) : Moves mayAgree s (s.rederive z).1 := by
  unfold State.rederive
  dsimp only
  split
  · refine .trans ?_ (takeCondition_moves _ _ _)
    exact .liu s _ ⟨rfl, rfl, rfl⟩
  · exact .refl _

/-- Zones derived anew are a chain of moves. -/
theorem rederiveSet_moves (s : State) (lines : LineSet) : Moves mayAgree s (s.rederiveSet lines).1 :=
  .sweepNotices _ _ rederive_moves s

/-- The end of a session is a chain of moves. -/
theorem endSession_moves (s : State) : Moves mayAgree s s.endSession.1 := by
  unfold State.endSession
  split
  · exact .refl _
  · refine .trans ?_ (rederiveSet_moves _ _)
    exact .liu s _ ⟨rfl, rfl, rfl⟩

/-- The start of a session is a chain of moves. -/
theorem startSession_moves (s : State) (lines : LineSet) : Moves mayAgree s (s.startSession lines).1 := by
  unfold State.startSession
  refine .trans ?_ (rederiveSet_moves _ _)
  exact .liu s _ ⟨rfl, rfl, rfl⟩

/-! ## Escalation, commitment, notices -/

/-- The escalation test is a chain of moves. -/
theorem escalationTest_moves (s : State) : Moves mayAgree s s.escalationTest := by
  unfold State.escalationTest
  split
  · exact .refl _
  · exact .trans (withAge_agree s _) (queue_moves _ _ _)

/-- A zone appended is a chain of moves. -/
theorem appendSubsequent_moves (s : State) (z : ZoneId) : Moves mayAgree s (s.appendSubsequent z) :=
  .trans (withAge_agree s _) (escalationTest_moves _)

/-- The alarm sweep is a move. -/
theorem alarmSweep_moves (s : State) : Moves mayAgree s s.alarmSweep :=
  withAge_agree s _

/-- A view taken by the STS within the agreement. -/
theorem takeView_agree (s : State) (restart : Bool) : Moves mayAgree s (s.takeView restart) :=
  (takeView_moves s restart).toAgree

/-- The commitment to an origin is a chain of moves. -/
theorem commitOrigin_moves (s : State) : Moves mayAgree s s.commitOrigin := by
  unfold State.commitOrigin
  split
  · exact .refl _
  · dsimp only
    refine .trans ?_ (escalationTest_moves _)
    refine .trans ?_ (queueView_agree _)
    refine .trans ?_ (.trace _ _ _ _ _)
    refine .trans ?_ (takeView_agree _ _)
    refine .trans ?_ (alarmSweep_moves _)
    exact withAge_agree s _

/-- A fire taken in ISLAND is a chain of moves. -/
theorem islandFire_moves (s : State) : Moves mayAgree s s.islandFire.1 := by
  unfold State.islandFire
  split
  · exact .refl _
  · dsimp only
    refine .trans ?_ (escalationTest_moves _)
    refine .trans ?_ (queueView_agree _)
    refine .trans ?_ (.trace _ _ _ _ _)
    refine .trans ?_ (endSession_moves _)
    refine .trans ?_ (takeView_agree _ _)
    refine .trans ?_ (queue_moves _ _ _)
    refine .trans ?_ (alarmSweep_moves _)
    exact withAge_agree s _

/-- A home alarm notice is a chain of moves. -/
theorem takeHomeNotice_moves (s : State) (z : ZoneId) : Moves mayAgree s (s.takeHomeNotice z).1 := by
  unfold State.takeHomeNotice
  split
  · exact .refl _
  · split
    · split
      · exact islandFire_moves s
      · exact queue_moves _ _ _
    · dsimp only
      unfold State.claimInWindow
      split
      · exact .refl _
      · exact queue_moves _ _ _
    · exact appendSubsequent_moves _ _

/-- A copy alarm notice is a chain of moves. -/
theorem takeCopyNotice_moves (s : State) (z : ZoneId) : Moves mayAgree s (s.takeCopyNotice z) := by
  unfold State.takeCopyNotice
  split
  · exact appendSubsequent_moves _ _
  · exact .refl _

/-- A notice is a chain of moves. -/
theorem takeNotice_moves (s : State) (n : Notice) : Moves mayAgree s (s.takeNotice n).1 := by
  unfold State.takeNotice
  split
  · exact takeHomeNotice_moves _ _
  · exact takeCopyNotice_moves _ _

/-- Notices are a chain of moves. -/
theorem takeNotices_moves (s : State) (notices : List Notice) : Moves mayAgree s (s.takeNotices notices) :=
  .trans (.sweepNotices notices _ takeNotice_moves s) (.sweepNotices _ _ takeNotice_moves _)

/-- Claim renewal is a chain of moves. -/
theorem claimRenewal_moves (s : State) : Moves mayAgree s s.claimRenewal := by
  unfold State.claimRenewal
  repeat' split
  all_goals first
    | exact .refl _
    | exact queue_moves _ _ _

/-! ## Adoption and bulletins -/

/-- VIEW-DISPUTE reported is a chain of moves. -/
theorem reportDispute_moves (s : State) (z : ZoneId) : Moves mayAgree s (s.reportDispute z) :=
  onset_moves _ _ _ _ _ _

/-- The lists and the view of an adoption are a chain of moves. -/
theorem adoptLists_moves (s : State) (v : View) (kind : Adoption) : Moves mayAgree s (s.adoptLists v kind) := by
  unfold State.adoptLists
  split
  · unfold State.adoptNewEpoch
    dsimp only
    split
    · exact withAge_agree s _
    · exact .trans (withAge_agree s _) (alarmSweep_moves _)
    · exact withAge_agree s _
  · unfold State.adoptContinuation
    dsimp only
    split
    · split
      · exact withAge_agree s _
      · exact .trans (withAge_agree s _) (reportDispute_moves _ _)
    · exact withAge_agree s _
  · unfold State.adoptCandidate
    split <;> exact withAge_agree s _
  · have h : ∀ (x : Age) (d : ZoneId), Moves mayAgree s ((s.withAge x).reportDispute d) :=
      fun x d => .trans (withAge_agree s x) (reportDispute_moves _ _)
    unfold State.adoptSameEpoch
    dsimp only
    split
    · refine .trans ?_ (alarmSweep_moves _)
      split
      · split
        · exact withAge_agree s _
        · exact h _ _
      · exact withAge_agree s _
    · split
      · split
        · exact withAge_agree s _
        · exact h _ _
      · exact withAge_agree s _
  · exact withAge_agree s _

/-- Outside a dispute the view is handed as it stands. -/
@[simp] theorem handAdopted_plain (s : State) : s.handAdopted false = s.takeView false := rfl

/-- A record that begins again stands at step 1, not established, and keeps the rest. -/
@[simp] theorem beginAgain_step (a : Age) : a.beginAgain.view.step = 1 := rfl
@[simp] theorem beginAgain_established (a : Age) : a.beginAgain.view.established = false := rfl
@[simp] theorem beginAgain_epoch (a : Age) : a.beginAgain.view.epoch = a.view.epoch := rfl
@[simp] theorem beginAgain_phase (a : Age) : a.beginAgain.view.phase = a.view.phase := rfl
@[simp] theorem beginAgain_escalated (a : Age) : a.beginAgain.view.escalated = a.view.escalated := rfl
@[simp] theorem beginAgain_origin (a : Age) : a.beginAgain.view.origin = a.view.origin := rfl
@[simp] theorem beginAgain_scenario (a : Age) : a.beginAgain.view.scenario = a.view.scenario := rfl
@[simp] theorem beginAgain_void (a : Age) : a.beginAgain.void = a.void := rfl
@[simp] theorem beginAgain_candidates (a : Age) : a.beginAgain.candidates = a.candidates := rfl
@[simp] theorem beginAgain_subsequent (a : Age) : a.beginAgain.subsequent = a.subsequent := rfl
@[simp] theorem beginAgain_window (a : Age) : a.beginAgain.window = a.window := rfl
@[simp] theorem beginAgain_escalationEpoch (a : Age) : a.beginAgain.escalationEpoch = a.escalationEpoch := rfl

/-- A dispute enters the program of the adopted view at step 1, with no row caught up (R53, R96). -/
theorem handAdopted_dispute (s : State) (h : s.age.view.phase = .running) : s.handAdopted true =
    ((((s.withAge s.age.beginAgain).clearSteps s.age.beginAgain.view).startStep 1).actOnPhase s.sts.phase .running).recompute := by
  have none_below : (1 : StepId).val - 1 = 0 := rfl
  unfold State.handAdopted
  rw [if_pos rfl, takeView_rebuilds _ true (.inl rfl), withAge_age, rebuildSteps_running _ s.age.beginAgain.view h rfl, beginAgain_step,
    none_below, catchUpRows_none, withAge_sts]

/-- An adopted view handed to the STS is a chain of moves. -/
theorem handAdopted_moves (s : State) (dispute : Bool) : Moves mayAgree s (s.handAdopted dispute) := by
  unfold State.handAdopted
  split
  · exact .trans (withAge_agree s _) (takeView_agree _ _)
  · exact takeView_agree _ _

/-- The adoption of a view is a chain of moves. -/
theorem adopt_moves (s : State) (v : View) (sender : StationId) (byEscalate : Bool) :
    Moves mayAgree s (s.adopt v sender byEscalate).1 := by
  unfold State.adopt
  dsimp only
  refine .trans ?_ (escalationTest_moves _)
  refine .trans ?_ (queueView_agree _)
  refine .trans ?_ (.trace _ _ _ _ _)
  have h : Moves mayAgree s ((s.adoptLists v (s.adoptionKind v byEscalate)).handAdopted
      (s.isDispute v (s.adoptionKind v byEscalate))) :=
    .trans (adoptLists_moves _ _ _) (handAdopted_moves _ _)
  split
  · refine .trans ?_ (.trace _ _ _ _ _)
    split
    · exact .trans h (endSession_moves _)
    · exact h
  · split
    · exact .trans h (endSession_moves _)
    · exact h

/-- A claim window opened is a chain of moves. -/
theorem openWindow_moves (s : State) (epoch : Epoch) (z : ZoneId) : Moves mayAgree s (s.openWindow epoch z).1 := by
  unfold State.openWindow
  dsimp only
  refine .trans ?_ (queueView_agree _)
  refine .trans ?_ (.trace _ _ _ _ _)
  split
  · refine .trans ?_ (endSession_moves _)
    refine .trans ?_ (takeView_agree _ _)
    exact withAge_agree s _
  · refine .trans ?_ (takeView_agree _ _)
    exact withAge_agree s _

/-- A candidate added is a chain of moves. -/
theorem addCandidate_moves (s : State) (z : ZoneId) : Moves mayAgree s (s.addCandidate z) := by
  unfold State.addCandidate
  dsimp only
  split
  · split
    · exact .trans (withAge_agree s _) (queueView_agree _)
    · exact withAge_agree s _
  · exact .trans (withAge_agree s _) (queueView_agree _)

/-- A CLAIM taken by the AGE is a chain of moves. -/
theorem takeClaim_moves (s : State) (epoch : Epoch) (zone : Byte) : Moves mayAgree s (s.takeClaim epoch zone).1 := by
  unfold State.takeClaim
  split
  · exact .refl _
  · split
    · exact openWindow_moves _ _ _
    · split
      · dsimp only
        unfold State.claimAtEpoch
        repeat' split
        all_goals first
          | exact .refl _
          | exact addCandidate_moves _ _
          | exact withAge_agree s _
          | exact appendSubsequent_moves _ _
          | exact queueView_agree _
      · exact queueView_agree _

/-- A view compared is a chain of moves. -/
theorem compareView_moves (s : State) (v : View) (sender : StationId) (byEscalate : Bool) :
    Moves mayAgree s (s.compareView v sender byEscalate).1 := by
  unfold State.compareView
  split
  · exact adopt_moves _ _ _ _
  · split
    · exact .refl _
    · exact queueView_agree _

/-- An ESCALATE taken by the AGE is a chain of moves. -/
theorem takeEscalate_moves (s : State) (sender : StationId) (epoch : Epoch) (origin scenario : Byte) :
    Moves mayAgree s (s.takeEscalate sender epoch origin scenario).1 := by
  unfold State.takeEscalate
  split
  · exact .refl _
  · split
    · exact .refl _
    · exact .trans (withAge_agree s _) (compareView_moves _ _ _ _)

/-- A STAND-DOWN taken by the AGE is a chain of moves. -/
theorem takeStandDown_moves (s : State) (sender : StationId) (epoch : Epoch) :
    Moves mayAgree s (s.takeStandDown sender epoch).1 := by
  unfold State.takeStandDown
  split
  · exact .refl _
  · exact compareView_moves _ _ _ _

/-- A VIEW taken by the AGE is a chain of moves. -/
theorem takeHeardView_moves (s : State) (sender : StationId) (epoch : Epoch) (flags origin scenario step : Byte)
    (digest : BitVec 16) : Moves mayAgree s (s.takeHeardView sender epoch flags origin scenario step digest).1 := by
  unfold State.takeHeardView
  split
  · split
    · exact .refl _
    · split
      · exact adopt_moves _ _ _ _
      · split
        · dsimp only
          unfold State.ageCatchUp
          refine .trans ?_ (queueView_agree _)
          refine .trans ?_ (catchUp_moves _ _ _ _ _).toView.toAgree
          exact withAge_agree s _
        · exact .refl _
  · exact .refl _

/-- A stand-down key event is a chain of moves. -/
theorem takeKeyEvent_moves (s : State) : Moves mayAgree s s.takeKeyEvent := by
  unfold State.takeKeyEvent
  repeat' split
  all_goals first
    | exact .refl _
    | exact onset_moves _ _ _ _ _ _
    | exact queue_moves _ _ _

/-- The join-end event is a chain of moves. -/
theorem joinEnd_moves (s : State) : Moves mayAgree s s.joinEnd := by
  unfold State.joinEnd
  refine .trans ?_ (escalationTest_moves _)
  refine .trans ?_ ((settleView_moves _).mono mayMode_le_mayView).toAgree
  exact withAge_agree s _

/-- The entry into ISLAND taken by the AGE is a chain of moves. -/
theorem islandEntry_moves (s : State) : Moves mayAgree s s.islandEntry := by
  unfold State.islandEntry
  split
  · exact commitOrigin_moves _
  · exact .refl _

/-- A link restart taken by the AGE is a chain of moves. -/
theorem ageLinkRestart_moves (s : State) : Moves mayAgree s s.ageLinkRestart :=
  .trans (withAge_agree s _) (escalationTest_moves _)

end Sys2Proof.Machine
end

