-- ==== Sys2Proof/Laws/Bus.lean ====
section
/-! SUPPORT. What the operations of the Bus Controller over the line can do: the watch for an idle line and the line monitor, the
begin of an attempt, the end of a frame (R159, R166, R172); and where a bulletin joins the Transmit Queue (R163). -/

namespace Sys2Proof.Machine

/-! ## The watch for an idle line -/

@[simp] theorem idle_frame : LineWatch.idle .frame = false := rfl
@[simp] theorem idle_outside (bits : Nat) : (LineWatch.outside bits).idle = decide (10 ≤ bits) := rfl

/-- The count toward an idle line reaches 10 where the line has been recessive for 10 bit times (R159). -/
@[simp] theorem idle_quiet (bits : Nat) : (LineWatch.quiet bits).idle = decide (10 ≤ bits) := by
  simp only [LineWatch.quiet, idleBits, idle_outside, decide_eq_decide]
  omega

/-- The line monitor alone takes a run of bits. -/
theorem sawBits_frame (c : Bsc) (bits : List Bool) : c.sawBits bits =
    { c with dominant := (c.sawBits bits).dominant, recovery := (c.sawBits bits).recovery } :=
  monitor_frame _ _ _

/-- After a run that ends recessive the dominant timer is stopped and the recovery timer counts from its start (R172, R173). -/
theorem sawBits_recessive (c : Bsc) (bits : List Bool) (held : Nat) (h : lastRun bits = (true, held)) :
    c.sawBits bits = { c with dominant := none, recovery := recoveryAfter c.linkStuck held } := by
  simp [Bsc.sawBits, h, Bsc.monitor]

/-- After a run that ends dominant the recovery timer is stopped and the dominant timer counts from its start (R172, R173). -/
theorem sawBits_dominant (c : Bsc) (bits : List Bool) (held : Nat) (h : lastRun bits = (false, held)) :
    c.sawBits bits = { c with dominant := dominantAfter c.linkStuck held, recovery := none } := by
  simp [Bsc.sawBits, h, Bsc.monitor]

/-- The line monitor and the watch alone take a quiet line. -/
theorem sawQuiet_frame (c : Bsc) (bits : Nat) : c.sawQuiet bits =
    { c with watch := (c.sawQuiet bits).watch, dominant := (c.sawQuiet bits).dominant,
             recovery := (c.sawQuiet bits).recovery } := by
  simp only [Bsc.sawQuiet, Bsc.sawDominant, Bsc.sawRecessive, Bsc.monitor]
  repeat' split
  all_goals rfl

/-- A frame on the line stays there until its end. -/
theorem sawQuiet_of_frame (c : Bsc) (bits : Nat) (h : c.watch = .frame) : c.sawQuiet bits = c := by
  simp [Bsc.sawQuiet, h]

/-- Outside a frame the watch counts up to the 10 bit times of an idle line. -/
theorem sawQuiet_watch (c : Bsc) (bits : Nat) (h : c.watch ≠ .frame) : (c.sawQuiet bits).watch = .outside (min bits 10) := by
  simp only [Bsc.sawQuiet]
  split
  · next e => exact absurd e h
  · rfl

/-! ## The end of a frame -/

@[simp] theorem frameEnded_watch (c : Bsc) (f : Frame) : (c.frameEnded f).watch = .outside 0 := rfl

/-- The end of a frame forgets the own bit error, begins the count anew, tells the line monitor, and leaves the queues and the
transmitter as they are. -/
theorem frameEnded_frame (c : Bsc) (f : Frame) : c.frameEnded f =
    { c with watch := .outside 0, ownError := false, dominant := (c.frameEnded f).dominant,
             recovery := (c.frameEnded f).recovery } := by
  simp only [Bsc.frameEnded]
  rw [sawBits_frame]

/-- Bits that end in a run of recessive ones end in at least that run. -/
theorem lastRun_recessive (bits : List Bool) (n : Nat) :
    ∃ held, n + 1 ≤ held ∧ lastRun (bits ++ List.replicate (n + 1) true) = (true, held) := by
  refine ⟨((List.replicate n true ++ bits.reverse).takeWhile fun x => x == true).length + 1, ?_, ?_⟩
  · rw [List.takeWhile_append_of_pos fun x hx => by simp [List.eq_of_mem_replicate hx]]
    simp only [List.length_append, List.length_replicate]
    omega
  · rw [lastRun, List.reverse_append, List.reverse_replicate, List.replicate_succ]
    rfl

/-- A frame that passes the checks has its seven recessive end bits behind its check (section 9.2, R160). -/
theorem frameBits_of_receive (f : Frame) (b : Bulletin) (h : receiveFrame f = some b) :
    ∃ bits, frameBits f = bits ++ List.replicate 7 true := by
  simp only [receiveFrame] at h
  split at h
  · exact absurd h (by simp)
  · next ok =>
    simp only [Bool.or_eq_true, not_or, Bool.not_eq_true, bne_eq_false_iff_eq] at ok
    obtain ⟨⟨⟨head, -⟩, last⟩, -⟩ := ok
    have ends : bitsOf (127#7) = List.replicate 7 true := by decide
    refine ⟨false :: (bitsOf (contentionField f.cls f.sender) ++ bitsOf f.kind ++ bitsOf f.length)
      ++ bitsOfBytes f.payload ++ bitsOf f.crc, ?_⟩
    simp [frameBits, head, last, ends]

/-- A frame that passes the checks leaves the line recessive for its end bits or longer (section 9.2, R173). -/
theorem lastRun_of_receive (f : Frame) (b : Bulletin) (h : receiveFrame f = some b) :
    ∃ held, 7 ≤ held ∧ lastRun (frameBits f) = (true, held) := by
  obtain ⟨bits, e⟩ := frameBits_of_receive f b h
  rw [e]
  exact lastRun_recessive bits 6

/-! ## The begin of an attempt -/

/-- When the transmitter may begin an attempt (R166). -/
theorem mayBegin_iff (c : Bsc) : c.mayBegin = true ↔
    c.linkStuck = false ∧ c.attempt = none ∧ c.queue ≠ [] ∧ c.watch.idle = true := by
  simp [Bsc.mayBegin, Bsc.halted, and_assoc]

/-- An attempt begun: the first entry in it, its frame on the line, the dominant timer started (R159, R166, R172). -/
theorem begin_cons (c : Bsc) (e : TxEntry) (rest : List TxEntry) (h : c.queue = e :: rest) : c.begin =
    { c with queue := { e with inAttempt := true } :: rest, attempt := some { sent := e.bulletin, replaced := false },
             ownError := false, watch := .frame, dominant := dominantAfter c.linkStuck 0, recovery := none } := by
  simp [Bsc.begin, h]

/-- The transmitter's turn: the watch taken, and an attempt begun exactly where it may begin (R166). -/
theorem tryBegin_cases (c : Bsc) (bits : Nat) :
    ((c.sawQuiet bits).mayBegin = true ∧ c.tryBegin bits = (c.sawQuiet bits).begin)
      ∨ ((c.sawQuiet bits).mayBegin = false ∧ c.tryBegin bits = c.sawQuiet bits) := by
  cases h : (c.sawQuiet bits).mayBegin <;> simp [Bsc.tryBegin, h]

/-- No attempt begins while a frame is on the line or before 10 recessive bit times (R159). -/
theorem tryBegin_busy (c : Bsc) (bits : Nat) (h : c.watch = .frame ∨ bits < 10) : c.tryBegin bits = c.sawQuiet bits := by
  rcases tryBegin_cases c bits with ⟨hm, _⟩ | ⟨_, h'⟩
  · obtain ⟨-, -, -, hi⟩ := (mayBegin_iff _).1 hm
    by_cases hw : c.watch = .frame
    · rw [sawQuiet_of_frame _ _ hw, hw] at hi
      simp at hi
    · rw [sawQuiet_watch _ _ hw] at hi
      have : 10 ≤ min bits 10 := by simpa using hi
      rcases h with h | h
      · exact absurd h hw
      · omega
  · exact h'

/-! ## The place of a bulletin -/

/-- In a queue ordered by class, an entry joins behind those of its class or more urgent ones, and before the rest (R163). -/
theorem txPlace_split (e : TxEntry) (q : List TxEntry) (h : q.Pairwise fun y z => y.bulletin.cls ≤ z.bulletin.cls) :
    ∃ front back, q = front ++ back ∧ txPlace e q = front ++ e :: back
      ∧ (∀ y ∈ front, y.bulletin.cls ≤ e.bulletin.cls) ∧ ∀ y ∈ back, e.bulletin.cls < y.bulletin.cls := by
  induction q with
  | nil => exact ⟨[], [], rfl, rfl, by simp, by simp⟩
  | cons x rest ih =>
    obtain ⟨hx, hr⟩ := List.pairwise_cons.1 h
    by_cases hc : x.bulletin.cls ≤ e.bulletin.cls
    · obtain ⟨front, back, hq, hp, hf, hb⟩ := ih hr
      refine ⟨x :: front, back, by simp [hq], by simp [txPlace, hc, hp], fun y hy => ?_, hb⟩
      rcases List.mem_cons.1 hy with rfl | hy
      · exact hc
      · exact hf y hy
    · refine ⟨[], x :: rest, rfl, by simp [txPlace, hc], by simp, fun y hy => ?_⟩
      have hlt : e.bulletin.cls < x.bulletin.cls := BitVec.not_le.1 hc
      rcases List.mem_cons.1 hy with rfl | hy
      · exact hlt
      · have hle := hx y hy
        rw [BitVec.lt_def] at *
        rw [BitVec.le_def] at hle
        omega

end Sys2Proof.Machine
end

