-- ==== Sys2Proof/Laws/Presence.lean ====
section
/-! SUPPORT. What the operations of the Override Unit, the Presence Monitor and the Bus Controller's restart can do. -/

namespace Sys2Proof.Machine

/-- A Zone Table with the same configuration, conditions and rotation: only copy states differ. -/
def Ztu.sameConditions (a b : Ztu) : Prop :=
  (∀ z : ZoneId, b.zones[z] = { a.zones[z] with copy := (b.zones[z]).copy }) ∧ b.rotation = a.rotation

/-- An OVU with the same owners, modes and requests: only stale flags differ. -/
def Ovu.sameModes (a b : Ovu) : Prop :=
  b = { a with table := b.table } ∧ ∀ g : GroupId, b.table[g] = { a.table[g] with stale := (b.table[g]).stale }

/-- A PRM with the same configured set. -/
def Prm.sameConfigured (a b : Prm) : Prop :=
  b.configured = a.configured

/-- What noting a sender may make of each block. -/
def mayNote : May where
  ztu := Ztu.sameConditions
  age := Age.sameButStep
  prm := Prm.sameConfigured
  sts := Sts.sameView
  ptc := fun _ _ => True
  pmu := fun _ _ => True
  ovu := Ovu.sameModes

/-- What any event of the station outside its start, its tick and its lines' own records may make of each block. -/
def mayAny : May where
  liu := fun a b => b.lines = a.lines ∧ b.commands = a.commands
  ztu := fun a b => ∀ z : ZoneId, (b.zones[z]).cfg = (a.zones[z]).cfg
  age := fun _ _ => True
  prm := Prm.sameConfigured
  sts := Sts.samePrograms
  ptc := fun _ _ => True
  pmu := fun _ _ => True
  ovu := fun a b => ∀ g : GroupId, (b.table[g]).owner = (a.table[g]).owner

/-- The permissions of noting a sender chain. -/
theorem mayNote_chains : mayNote.Chains where
  liu := eq_chains
  ztu := ⟨fun _ => ⟨fun _ => rfl, rfl⟩, fun _ _ _ h k => ⟨fun z => by rw [k.1 z, h.1 z], k.2.trans h.2⟩⟩
  age := ⟨Age.sameButStep_refl, Age.sameButStep_trans⟩
  prm := ⟨fun _ => rfl, fun _ _ _ h k => Eq.trans k h⟩
  sts := ⟨fun _ => ⟨rfl, rfl, rfl, rfl, rfl, fun _ => rfl⟩, Sts.sameView_trans⟩
  ptc := true_chains
  pmu := true_chains
  ovu := ⟨fun _ => ⟨rfl, fun _ => rfl⟩, fun _ _ _ h k => ⟨by rw [k.1, h.1], fun g => by rw [k.2 g, h.2 g]⟩⟩

/-- The permissions of any event chain. -/
theorem mayAny_chains : mayAny.Chains where
  liu := ⟨fun _ => ⟨rfl, rfl⟩, fun _ _ _ h k => ⟨k.1.trans h.1, k.2.trans h.2⟩⟩
  ztu := ⟨fun _ _ => rfl, fun _ _ _ h k z => (k z).trans (h z)⟩
  age := true_chains
  prm := ⟨fun _ => rfl, fun _ _ _ h k => Eq.trans k h⟩
  sts := ⟨fun _ => ⟨rfl, rfl⟩, fun _ _ _ h k => ⟨k.1.trans h.1, k.2.trans h.2⟩⟩
  ptc := true_chains
  pmu := true_chains
  ovu := ⟨fun _ _ => rfl, fun _ _ _ h k g => (k g).trans (h g)⟩

/-- A PRM that differs in summaries alone has the same configured set. -/
theorem Prm.sameConfigured_of (a b : Prm) (h : a.sameButSummaries b) : a.sameConfigured b := by
  unfold Prm.sameConfigured
  rw [h.1]

/-- Taking a mode is within noting a sender. -/
theorem mayMode_le_mayNote : mayMode.le mayNote where
  liu := fun _ _ h => h
  ztu := fun a _ h => by cases h; exact ⟨fun _ => rfl, rfl⟩
  age := fun _ _ h => h
  prm := Prm.sameConfigured_of
  sts := fun _ _ h => h
  ptc := fun _ _ _ => trivial
  pmu := fun _ _ _ => trivial
  ovu := fun a _ h => by cases h; exact ⟨rfl, fun _ => rfl⟩

/-- Noting a sender is within any event. -/
theorem mayNote_le_mayAny : mayNote.le mayAny where
  liu := fun a _ h => by cases h; exact ⟨rfl, rfl⟩
  ztu := fun _ _ h z => by rw [h.1 z]
  age := fun _ _ _ => trivial
  prm := fun _ _ h => h
  sts := fun _ _ h => ⟨h.1, h.2.1⟩
  ptc := fun _ _ _ => trivial
  pmu := fun _ _ _ => trivial
  ovu := fun _ _ h g => by rw [h.2 g]

/-- The agreement is within any event. -/
theorem mayAgree_le_mayAny : mayAgree.le mayAny where
  liu := fun _ _ h => ⟨h.1, h.2.1⟩
  ztu := fun _ _ h z => (h.1 z).1
  age := fun _ _ _ => trivial
  prm := Prm.sameConfigured_of
  sts := fun _ _ h => h
  ptc := fun _ _ _ => trivial
  pmu := fun _ _ _ => trivial
  ovu := fun a _ h => by cases h; exact fun _ => rfl

/-- A chain of running a step is one of noting a sender. -/
theorem Moves.toNote {s t : State} (c : Moves mayRun s t) : Moves mayNote s t :=
  c.toMode.mono mayMode_le_mayNote

/-- A chain of noting a sender is one of any event. -/
theorem Moves.noteToAny {s t : State} (c : Moves mayNote s t) : Moves mayAny s t :=
  c.mono mayNote_le_mayAny

/-- A chain of the agreement is one of any event. -/
theorem Moves.agreeToAny {s t : State} (c : Moves mayAgree s t) : Moves mayAny s t :=
  c.mono mayAgree_le_mayAny

/-! ## Presence changes -/

/-- A staleness mark taken by the ZTU is a move. -/
theorem markZones_moves (s : State) (n : StationId) : Moves mayNote s (s.markZones n) := by
  refine .ztu s _ ⟨fun z => ?_, rfl⟩
  simp only [Fin.getElem_fin, Vector.getElem_ofFn]
  unfold ZoneEntry.mark
  split
  · split <;> rfl
  · rfl

/-- A staleness mark taken by one group is a chain of moves. -/
theorem markGroup_moves (n : StationId) (s : State) (g : GroupId) : Moves mayNote s (State.markGroup n s g) := by
  unfold State.markGroup
  split
  · refine .trans ?_ (.trace _ _ _ _ _)
    refine .ovu s _ ⟨rfl, fun k => ?_⟩
    simp only [put_getElem]
    split
    · next e => subst e; rfl
    · rfl
  · exact .refl _

/-- Staleness marks taken by the OVU are a chain of moves. -/
theorem markGroups_moves (s : State) (n : StationId) : Moves mayNote s (s.markGroups n) :=
  .sweep _ _ (markGroup_moves n) s

/-- A presence entry set is a move. -/
theorem setPresence_moves (s : State) (n : StationId) (x : PresenceEntry) : Moves mayNote s (s.setPresence n x) :=
  .prm s _ rfl

/-- The presence faults of a change are a chain of moves of every layer. -/
theorem presenceFaults_moves {m : May} (s : State) (n : StationId) (old new : Presence) :
    Moves m s (s.presenceFaults n old new) :=
  handTogether_moves _ _ _

/-- A change of presence is a chain of moves. -/
theorem changePresence_moves (s : State) (n : StationId) (new : Presence) : Moves mayNote s (s.changePresence n new) := by
  unfold State.changePresence
  dsimp only
  split
  · exact .refl _
  · refine .trans ?_ (presenceFaults_moves _ _ _ _)
    have h := setPresence_moves s n { s.presence n with state := new }
    split
    · refine .trans ?_ (stationLost_moves _ _).toNote
      split
      · exact .trans h (.trans (markZones_moves _ _) (markGroups_moves _ _))
      · exact h
    · split
      · exact .trans h (.trans (markZones_moves _ _) (markGroups_moves _ _))
      · exact h

/-! ## Mode changes -/

/-- A VIEW queued while noting a sender. -/
theorem queueView_note (s : State) : Moves mayNote s s.queueView :=
  queueView_moves Prm.sameConfigured_of s

/-- A mode change handed on is a chain of moves. -/
theorem handMode_moves (s : State) (old : Mode) : Moves mayNote s (s.handMode old) := by
  unfold State.handMode
  refine .trans ?_ (.trace _ _ _ _ _)
  refine .trans ?_ ((takeMode_moves _).mono mayMode_le_mayNote)
  exact queueView_note s

/-- The station mode set is a move. -/
theorem setMode_moves (s : State) (x : Mode) : Moves mayNote s (s.setMode x) :=
  .prm s _ rfl

/-- The entry into JOINING after island is a chain of moves. -/
theorem enterJoiningAfterIsland_moves (s : State) : Moves mayNote s s.enterJoiningAfterIsland := by
  unfold State.enterJoiningAfterIsland
  dsimp only
  refine .trans ?_ (handMode_moves _ _)
  refine .trans (t := ((s.setMode .joiningAfterIsland).clear .island 255).queueSync) ?_ (.prm _ _ rfl)
  exact .trans (.trans (setMode_moves s _) (clear_moves _ _ _)) (queueSync_moves _)

/-- The entry into ISLAND is a chain of moves. -/
theorem enterIsland_moves (s : State) : Moves mayAny s s.enterIsland := by
  unfold State.enterIsland
  refine .trans ?_ (handMode_moves _ _).noteToAny
  refine .trans ?_ (islandEntry_moves _).agreeToAny
  refine .trans ?_ (onset_moves _ _ _ _ _ _)
  exact (setMode_moves s _).noteToAny

/-- The end of the join wait is a chain of moves. -/
theorem endJoinWait_moves (s : State) : Moves mayAny s s.endJoinWait := by
  unfold State.endJoinWait
  dsimp only
  have h : Moves mayAny s ((s.setMode .onLine).withPrm { (s.setMode .onLine).prm with joinWait := none }).markOwnLive.joinEnd := by
    refine .trans ?_ (joinEnd_moves _).agreeToAny
    unfold State.markOwnLive
    refine .trans ?_ (setPresence_moves _ _ _).noteToAny
    exact .trans (setMode_moves s .onLine).noteToAny (.prm _ _ rfl)
  generalize ((s.setMode .onLine).withPrm { (s.setMode .onLine).prm with joinWait := none }).markOwnLive.joinEnd = t at h ⊢
  have k : Moves mayAny s ((t.takeNotices t.joinEndNotices).handMode s.prm.mode) := by
    refine .trans ?_ (handMode_moves _ _).noteToAny
    exact .trans h (takeNotices_moves _ _).agreeToAny
  generalize (t.takeNotices t.joinEndNotices).handMode s.prm.mode = u at k ⊢
  split
  · exact .trans k (.trans (enterIsland_moves u) (takeNotices_moves _ _).agreeToAny)
  · exact k

/-- A chain followed by a move of the PRM. -/
theorem Moves.thenPrm {m : May} {s t : State} {x : Prm} (c : Moves m s t) (h : m.prm t.prm x) : Moves m s (t.withPrm x) :=
  .trans c (.prm t x h)

/-- The onset of LINK-STUCK taken by the PRM is a chain of moves. -/
theorem prmLinkStuck_moves (s : State) : Moves mayAny s s.prmLinkStuck := by
  unfold State.prmLinkStuck
  split
  · exact enterIsland_moves s
  · exact .refl _

/-- The clear of LINK-STUCK taken by the PRM is a chain of moves. -/
theorem prmLinkClear_moves (s : State) : Moves mayNote s s.prmLinkClear := by
  unfold State.prmLinkClear
  split
  · exact enterJoiningAfterIsland_moves s
  · exact .refl _

/-- The expiry of the solo timer is a chain of moves. -/
theorem soloExpiry_moves (s : State) : Moves mayAny s s.soloExpiry := by
  unfold State.soloExpiry
  dsimp only
  split
  · refine .trans ?_ (enterIsland_moves _)
    exact .prm s _ rfl
  · exact .prm s _ rfl

/-! ## Noting senders -/

/-- Noting a peer is a chain of moves. -/
theorem notePeer_moves (s : State) (n : StationId) : Moves mayNote s (s.notePeer n) := by
  unfold State.notePeer
  dsimp only
  have h := Moves.trans (setPresence_moves s n { s.presence n with lastHeard := some s.now, age := s.absenceTime })
    (changePresence_moves _ n ((s.setPresence n { s.presence n with lastHeard := some s.now, age := s.absenceTime }).presenceByDigest n))
  generalize (s.setPresence n { s.presence n with lastHeard := some s.now, age := s.absenceTime }).presenceByDigest n = new
    at h ⊢
  generalize (s.setPresence n { s.presence n with lastHeard := some s.now, age := s.absenceTime }).changePresence n new = t
    at h ⊢
  split
  · split
    · refine .trans ?_ (enterJoiningAfterIsland_moves _)
      exact .thenPrm h rfl
    · exact .thenPrm h rfl
  · exact h

/-- Noting a sender is a chain of moves. -/
theorem noteSender_moves (s : State) (n : StationId) : Moves mayNote s (s.noteSender n) := by
  unfold State.noteSender
  split
  · exact .refl _
  · exact notePeer_moves s n

/-- Noting a VIEW is a chain of moves. -/
theorem noteView_moves (s : State) (n : StationId) (epoch : Epoch) (flags origin scenario step : Byte) (digest : BitVec 16) :
    Moves mayNote s (s.noteView n epoch flags origin scenario step digest) := by
  unfold State.noteView
  split
  · exact .refl _
  · exact .trans (setPresence_moves _ _ _) (notePeer_moves _ _)

/-- A SYNC-REQUEST taken is a chain of moves. -/
theorem takeSync_moves (s : State) (n : StationId) : Moves mayNote s (s.takeSync n) := by
  unfold State.takeSync
  dsimp only
  split
  · exact .refl _
  · split
    · exact .trans (notePeer_moves _ _) (queueView_note _)
    · exact notePeer_moves _ _

/-- An age timer's expiry is a chain of moves. -/
theorem ageExpiry_moves (s : State) (n : StationId) : Moves mayNote s (s.ageExpiry n) :=
  .trans (setPresence_moves _ _ _) (changePresence_moves _ _ _)

/-! ## Overrides and reports -/

/-- A group's entry set, its owner kept, is a move. -/
theorem setGroup_moves (s : State) (g : GroupId) (x : OverrideEntry) (h : x.owner = (s.group g).owner) :
    Moves mayAny s (s.setGroup g x) := by
  refine .ovu s _ fun k => ?_
  simp only [put_getElem]
  split
  · next e => subst e; exact h
  · rfl

/-- A mode applied locally is a chain of moves. -/
theorem applyMode_moves (s : State) (g : GroupId) (x : GroupMode) : Moves mayAny s (s.applyMode g x) := by
  unfold State.applyMode
  split
  · exact .refl _
  · refine .trans ?_ (.trace _ _ _ _ _)
    refine .trans ?_ (recompute_moves _).toNote.noteToAny
    exact setGroup_moves s g _ rfl

/-- A group mode request is a chain of moves. -/
theorem takeRequest_moves (s : State) (g : GroupId) (x : GroupMode) : Moves mayAny s (s.takeRequest g x) := by
  unfold State.takeRequest
  dsimp only
  refine .trans ?_ (queue_moves _ _ _)
  have h : Moves mayAny s (s.withOvu { s.ovu with requested := put s.ovu.requested g x }) := .ovu s _ fun _ => rfl
  split
  · exact .trans h (applyMode_moves _ _ _)
  · exact h

/-- A requested mode derived is a chain of moves. -/
theorem deriveGroup_moves (s : State) (g : GroupId) : Moves mayAny s (s.deriveGroup g) := by
  unfold State.deriveGroup
  dsimp only
  split
  · refine .trans ?_ (takeRequest_moves _ _ _)
    exact .liu s _ ⟨rfl, rfl⟩
  · exact .refl _

/-- An OVERRIDE taken is a chain of moves. -/
theorem takeOverride_moves (s : State) (src : Source) (group mode : Byte) :
    Moves mayAny s (s.takeOverride src group mode) := by
  unfold State.takeOverride
  split
  · split
    · next g x _ _ _ =>
      unfold State.acceptOverride
      dsimp only
      have h : Moves mayAny s (s.setGroup g { s.group g with mode := x, stale := false, lastHeard := some s.now }) :=
        setGroup_moves s g _ rfl
      have k : Moves mayAny s
          (if (s.group g).mode == x then
            s.setGroup g { s.group g with mode := x, stale := false, lastHeard := some s.now }
          else (s.setGroup g { s.group g with mode := x, stale := false, lastHeard := some s.now }).recompute) := by
        split
        · exact h
        · exact .trans h (recompute_moves _).toNote.noteToAny
      split
      · exact k
      · exact .trans k (.trace _ _ _ _ _)
    · exact .refl _
  · exact .refl _

/-- The onset of LINK-STUCK taken by the OVU is a chain of moves. -/
theorem startLocalApply_moves (s : State) : Moves mayAny s s.startLocalApply := by
  unfold State.startLocalApply
  refine .trans (t := s.withOvu { s.ovu with localApply := true }) (.ovu s _ fun _ => rfl) (.sweep _ _ (fun t g => ?_) _)
  unfold State.applyRequested
  split
  · exact applyMode_moves _ _ _
  · exact .refl _

/-- A ZONE-REPORT taken is a chain of moves. -/
theorem takeZoneReport_moves (s : State) (sender : StationId) (zone condition : Byte) :
    Moves mayAny s (s.takeZoneReport sender zone condition).1 := by
  unfold State.takeZoneReport
  split
  · split
    · refine .ztu s _ fun y => ?_
      simp only [put_getElem]
      split
      · next e => subst e; rfl
      · rfl
    · exact .refl _
  · exact .refl _

/-- The rotation report is a chain of moves. -/
theorem rotationReport_moves (s : State) : Moves mayAny s s.rotationReport := by
  unfold State.rotationReport
  split
  · exact .refl _
  · dsimp only
    refine .trans ?_ (queue_moves _ _ _)
    refine .ztu s _ fun y => ?_
    simp only [put_getElem]
    split
    · next e => subst e; rfl
    · rfl

/-- The override refresh is a chain of moves. -/
theorem overrideRefresh_moves (s : State) : Moves mayAny s s.overrideRefresh := by
  unfold State.overrideRefresh
  split
  · exact .refl _
  · refine .trans ?_ (queue_moves _ _ _)
    exact .ovu s _ fun _ => rfl

/-- A VIEW period event is a chain of moves. -/
theorem viewPeriod_moves (s : State) : Moves mayAny s s.viewPeriod := by
  unfold State.viewPeriod
  refine .trans ?_ (overrideRefresh_moves _)
  refine .trans ?_ (claimRenewal_moves _).agreeToAny
  refine .trans ?_ (rotationReport_moves _)
  refine .trans ?_ (queueView_note _).noteToAny
  exact .prm s _ rfl

end Sys2Proof.Machine
end

