-- ==== Sys2Proof/Laws/Reports.lean ====
section
/-! SUPPORT. What a report to the FLU reads and writes: the FLU and the BSC after it depend on the FLU, the BSC, the mode, the view
and the time alone, so a report commutes with the writing of every other block; and what the change of a point or
a line hands (`HandsFaults`). -/

namespace Sys2Proof.Machine

/-! ## The blocks no report reads -/

/-- The blocks that no report to the FLU reads, taken from another state. -/
def State.withOthers (s t : State) : State :=
  { s with liu := t.liu, ztu := t.ztu, sts := t.sts, ptc := t.ptc, pmu := t.pmu, ovu := t.ovu, mnp := t.mnp,
           pending := t.pending }

@[simp] theorem withOthers_flu (s t : State) : (s.withOthers t).flu = s.flu := rfl
@[simp] theorem withOthers_bsc (s t : State) : (s.withOthers t).bsc = s.bsc := rfl
@[simp] theorem withOthers_withOthers (s t u : State) : (s.withOthers t).withOthers u = s.withOthers u := rfl

/-- An onset recorded goes by the other blocks. -/
theorem withOthers_recordOnset (s t : State) (k : FaultKind) (j : Byte) (d : Detail) (b : Bool) :
    (s.withOthers t).recordOnset k j d b = (s.recordOnset k j d b).withOthers t := by
  simp only [State.recordOnset, show (s.withOthers t).onsetTaken k j b = s.onsetTaken k j b from rfl]
  split <;> rfl

/-- A clear recorded goes by the other blocks. -/
theorem withOthers_recordClear (s t : State) (k : FaultKind) (j : Byte) :
    (s.withOthers t).recordClear k j = (s.recordClear k j).withOthers t := by
  simp only [State.recordClear, show (s.withOthers t).clearTaken k j = s.clearTaken k j from rfl]
  split <;> rfl

/-- A bulletin handed to the BSC goes by the other blocks. -/
theorem withOthers_handBulletin (s t : State) (b : Bulletin) :
    (s.withOthers t).handBulletin b = ((s.handBulletin b).1.withOthers t, (s.handBulletin b).2) := by
  simp only [State.handBulletin, show (s.withOthers t).isActive = s.isActive from rfl]
  split <;> rfl

/-- A FAULT-NOTICE goes by the other blocks. -/
theorem withOthers_queueNotice (s t : State) (b : Bulletin) :
    (s.withOthers t).queueNotice b = (s.queueNotice b).withOthers t := by
  simp only [State.queueNotice, withOthers_handBulletin]
  rcases s.handBulletin b with ⟨x, _ | lost⟩
  · rfl
  · exact withOthers_recordOnset x t .txFailed _ _ true

/-- An onset taken goes by the other blocks. -/
theorem withOthers_takeOnset (s t : State) (k : FaultKind) (j : Byte) (d : Detail) (b : Bool) :
    (s.withOthers t).takeOnset k j d b = (s.takeOnset k j d b).withOthers t := by
  simp only [State.takeOnset, withOthers_recordOnset, show (s.withOthers t).onsetTaken k j b = s.onsetTaken k j b from rfl,
    show (s.withOthers t).severity k = s.severity k from rfl]
  split
  · exact withOthers_queueNotice _ _ _
  · rfl

/-- A clear taken goes by the other blocks. -/
theorem withOthers_takeClear (s t : State) (k : FaultKind) (j : Byte) :
    (s.withOthers t).takeClear k j = (s.takeClear k j).withOthers t := by
  simp only [State.takeClear, withOthers_recordClear, show (s.withOthers t).clearTaken k j = s.clearTaken k j from rfl,
    show (s.withOthers t).severity k = s.severity k from rfl]
  split
  · exact withOthers_queueNotice _ _ _
  · rfl

/-- A report taken goes by the other blocks. -/
theorem withOthers_takeFault (s t : State) (r : FaultReport) : (s.withOthers t).takeFault r = (s.takeFault r).withOthers t := by
  cases r
  · exact withOthers_takeOnset _ _ _ _ _ _
  · exact withOthers_takeClear _ _ _ _

/-- A report handed goes by the other blocks. -/
theorem withOthers_reportFault (s t : State) (r : FaultReport) (behind : Bool) :
    (s.withOthers t).reportFault r behind = (s.reportFault r behind).withOthers t := by
  simp only [State.reportFault, withOthers_flu, withOthers_takeFault]
  repeat' split
  all_goals rfl

/-- Reports handed together go by the other blocks. -/
theorem withOthers_handTogether (s t : State) (reports : List FaultReport) (behind : Bool) :
    (s.withOthers t).handTogether reports behind = (s.handTogether reports behind).withOthers t := by
  induction reports generalizing s behind with
  | nil => rfl
  | cons r rest ih => simp only [State.handTogether, withOthers_reportFault, withOthers_flu, ih]

/-- Reports made once other blocks are written, as a line's change makes them. -/
theorem reports_hands (s t : State) (j : Byte) (d : Detail) (clears onsets : List FaultKind) :
    HandsFaults s ((s.withOthers t).handTogether (changeReports j d clears onsets) false) j d clears onsets := by
  refine ⟨clears, List.Perm.refl _, ?_⟩
  rw [withOthers_handTogether]
  exact ⟨rfl, rfl⟩

/-! ## What a point hands -/

/-- A change of a point hands the faults it names. -/
theorem pointFaults_hands (s t : State) (p : PointId) (clears onsets : List FaultKind) :
    HandsFaults s ((s.withOthers t).pointFaults p clears onsets) (byteOf p.val) (t.point p).detail clears onsets := by
  exact reports_hands s t _ (t.point p).detail clears onsets

/-- A POINT-STATE entry and a report that waits change nothing that is handed. -/
theorem HandsFaults.reportPoint {s t : State} {j : Byte} {d : Detail} {clears onsets : List FaultKind}
    (h : HandsFaults s t j d clears onsets) (p : PointId) : HandsFaults s (t.reportPoint p) j d clears onsets := by
  obtain ⟨order, hp, hb, hf⟩ := h
  have hbsc : (t.reportPoint p).bsc = t.bsc := by
    simp only [State.reportPoint, State.tracePoint, State.tellSts]
    repeat' split
    all_goals rfl
  have hflu : (t.reportPoint p).flu =
      { t.flu with trace := (t.reportPoint p).flu.trace, writePos := (t.reportPoint p).flu.writePos,
                   nextSerial := (t.reportPoint p).flu.nextSerial } := by
    simp only [State.reportPoint, State.tracePoint, State.tellSts]
    repeat' split
    all_goals rfl
  refine ⟨order, hp, hbsc.trans hb, hflu.trans ?_⟩
  rw [hf]

/-- What the change of a fan hands: the faults it names, with the new record as detail (R146). -/
theorem commitFan_hands (s : State) (p : PointId) (f : Fan) (c : FanChange) :
    HandsFaults s (s.commitFan p f c) (byteOf p.val) (PointRecord.fan c.record).detail c.clears c.onsets := by
  let s1 := s.withPtc { s.ptc with
    points := put s.ptc.points p (.fan c.record)
    startQueue := queueAfter s.ptc.startQueue p f.state c.record.state }
  have hd : (s1.point p).detail = (PointRecord.fan c.record).detail :=
    congrArg PointRecord.detail (put_getElem_self _ _ _)
  have h := pointFaults_hands s s1 p c.clears c.onsets
  rw [hd, show s.withOthers s1 = s1 from rfl] at h
  simp only [State.commitFan]
  split
  · exact h.reportPoint p
  · exact h

end Sys2Proof.Machine
end

