-- ==== Sys2Proof/Laws/Window.lean ====
section
/-! SUPPORT. The maintenance window: the area an address lies in, the byte at it, and the fields of the tables (R193). A
proof about the window cites these instead of unfolding the map. -/

namespace Sys2Proof.Machine

/-! ## Areas -/

/-- No two areas overlap: an address within an area lies in that area. -/
theorem areaOf_base (a : Area) (i : Nat) (h : i < a.size) : areaOf (a.base + i) = some a := by
  revert i
  cases a <;> decide +kernel

/-- The byte the window presents within an area, 255 after its last field. -/
theorem State.windowByte_area (s : State) (a : Area) (i : Nat) (h : i < a.size) :
    s.windowByte (a.base + i) = (s.areaBytes a).getD i 255 := by
  simp [State.windowByte, areaOf_base a i h]

/-- The bytes the window presents within an area. -/
theorem State.windowBytes_area (s : State) (a : Area) (i count : Nat) (h : i + count ≤ a.size) :
    s.windowBytes (a.base + i) count = (List.range count).map fun j => (s.areaBytes a).getD (i + j) 255 := by
  unfold State.windowBytes
  apply List.map_congr_left
  intro j hj
  have : j < count := List.mem_range.mp hj
  rw [Nat.add_assoc]
  exact s.windowByte_area a (i + j) (by omega)

/-- An address in no area reads 255. -/
theorem State.windowByte_outside (s : State) (address : Nat) (h : areaOf address = none) :
    s.windowByte address = 255 := by
  simp [State.windowByte, h]

/-! ## Fields -/

@[simp] theorem two_length (v : Nat) : (two v).length = 2 := rfl
@[simp] theorem three_length (v : Nat) : (three v).length = 3 := rfl
@[simp] theorem four_length (v : Nat) : (four v).length = 4 := rfl
@[simp] theorem blank_length (n : Nat) : (blank n).length = n := List.length_replicate

@[simp] theorem timeField_length (t : Option Nat) : (timeField t).length = 2 := by
  unfold timeField
  split
  · rfl
  · split <;> rfl

@[simp] theorem remaining_length (draw : Nat) (t : Timer) : (remaining draw t).length = 2 := by
  unfold remaining; split <;> rfl

@[simp] theorem remainingBits_length (draw : Nat) (t : Timer) : (remainingBits draw t).length = 2 := by
  unfold remainingBits; split <;> rfl

@[simp] theorem flagged_none : flagged none = [0, 255, 255] := rfl
@[simp] theorem flagged_some (v : BitVec 16) : flagged (some v) = [1, hiByte v, loByte v] := rfl

@[simp] theorem flagged_length (w : Option (BitVec 16)) : (flagged w).length = 3 := by
  cases w <;> rfl

@[simp] theorem duration_none (draw : Nat) : duration draw none = [0, 255, 255] := rfl

/-- A duration that fits two bytes is shown as its number of milliseconds. -/
theorem duration_some (draw ms : Nat) (h : ms < 65536) : duration draw (some ms) = 1 :: two ms := by
  simp [duration, h, two]

@[simp] theorem duration_length (draw : Nat) (d : Option Nat) : (duration draw d).length = 3 :=
  flagged_length _

@[simp] theorem noEdgeBytes_length (millis : Nat) (t : Timer) : (noEdgeBytes millis t).length = 2 := by
  unfold noEdgeBytes; split <;> rfl

@[simp] theorem summaryBytes_length (x : Option Summary) : (summaryBytes x).length = 10 := by
  unfold summaryBytes; split <;> rfl

/-- A presence entry fills the sixteen bytes the map gives it. -/
@[simp] theorem PresenceEntry.bytes_length (e : PresenceEntry) : e.bytes.length = 16 := by
  simp [PresenceEntry.bytes]

/-- A measurement record fills the sixteen bytes the map gives it. -/
@[simp] theorem Pmu.bytes_length (m : Pmu) (draw millis : Nat) : (m.bytes draw millis).length = 16 := by
  simp [Pmu.bytes]

/-- A quantity that is a whole number of the unit is shown as that number. -/
@[simp] theorem shown_whole (draw v per : Nat) (h : 0 < per) : shown draw (per * v) per = v := by
  simp [shown, Nat.mul_mod_right, Nat.mul_div_cancel_left v h]

/-- The byte after so many whole pieces of a list of pieces of one width. -/
theorem flatMap_getD {α : Type} (xs : List α) (f : α → List Byte) (w i j : Nat) (x : α)
    (hw : ∀ y ∈ xs, (f y).length = w) (hj : j < w) (hx : xs[i]? = some x) :
    (xs.flatMap f).getD (w * i + j) 255 = (f x).getD j 255 := by
  induction xs generalizing i with
  | nil => simp at hx
  | cons y ys ih =>
    have hy : (f y).length = w := hw y (by simp)
    cases i with
    | zero =>
      simp at hx
      subst hx
      simp [List.flatMap_cons, List.getD_eq_getElem?_getD, List.getElem?_append_left, hy, hj]
    | succ i =>
      have hr := ih i (fun z hz => hw z (by simp [hz])) (by simpa using hx)
      have hn : w * (i + 1) + j = w + (w * i + j) := by rw [Nat.mul_succ]; omega
      rw [List.getD_eq_getElem?_getD] at hr ⊢
      rw [List.flatMap_cons, List.getElem?_append_right (by omega), hy, hn, Nat.add_sub_cancel_left]
      exact hr

/-- A byte of an entry of a table whose entries have one width. -/
theorem tableField_getD (n w : Nat) (f : Fin n → List Byte) (i : Fin n) (j : Nat) (hw : ∀ k, (f k).length = w)
    (hj : j < w) : (tableField n f).getD (w * i.val + j) 255 = (f i).getD j 255 :=
  flatMap_getD _ f w i.val j i (fun k _ => hw k) hj (by simp)

/-- A table of entries of one width holds that many bytes of each. -/
theorem tableField_length (n w : Nat) (f : Fin n → List Byte) (hw : ∀ k, (f k).length = w) :
    (tableField n f).length = n * w := by
  simp [tableField, List.length_flatMap, hw, List.map_const']

end Sys2Proof.Machine
end

