-- ==== Sys2Proof/WellFormed.lean ====
section
/-! DEFINITION. Well-formed commands: those that the surroundings can bring. The checks say which operands no event of the
station has. -/

namespace Sys2Proof

/-- A frame that is read to its end with no error in its head: its kind is one of the nine, and its length is the kind's and
the number of its payload bytes (section 9.2, R160). -/
def Frame.headMatches (f : Frame) : Bool :=
  (Machine.kindLength f.kind == some f.length.toNat) && f.payload.length == f.length.toNat

/-- The payload of a frame is as long as its length field says, or the frame was abandoned at its head (R160). -/
def Frame.payloadFits (f : Frame) : Bool :=
  Machine.frameHeadError f || f.payload.length == f.length.toNat

/-- Station mode bits of a VIEW's flag byte that no complete frame carries (R160). -/
def legalViewFlags (flags : Byte) : Bool :=
  Machine.flagsMode flags != 3

/-- The check of a command's operands. -/
def wellFormed (c : Instr) : Bool :=
  match c with
  | .frameComplete f => f.headMatches && (Machine.receiveFrame f).isSome
  | .frameError f _ => f.payloadFits && (Machine.receiveFrame f).isNone
  | .view _ _ _ flags _ _ _ _ => legalViewFlags flags
  | .unknownCommand code => Machine.unknownCode code
  | _ => true

end Sys2Proof
end

