-- ==== Sys2Proof/Tests/Slice0.lean ====
section
/-! SUPPORT. The builder's own tests: ill-formed commands that the check refuses, small steps checked by the kernel, and for every
obligation with hypotheses states and operands that meet them. -/

namespace Sys2Proof.Tests

set_option Elab.async false

open Sys2Proof Sys2Proof.Machine

/-! ## Small states -/

/-- Station 9 in a mode with zone 3 its own, zone 4 of station 2, group 0 its own, group 1 of station 2, and no point in use. -/
def station (m : Mode) : State :=
  let s := (State.reset.withPrm { State.reset.prm with mode := m, configured := 0x204 }).withCfl
    { State.reset.cfl with station := some 9, stage := .done, digest := some 7, ticks := 1000 }
  let s := s.setZone 3 { cfg := some { home := 9, rank := 5, scenario := 7 }, condition := .quiet, copy := .home,
                         lastReport := none }
  let s := s.setZone 4 { cfg := some { home := 2, rank := 8, scenario := 8 }, condition := .quiet, copy := .current,
                         lastReport := none }
  let s := s.setGroup 0 { owner := some 9, mode := .auto, stale := false, lastHeard := none }
  let s := s.setGroup 1 { owner := some 2, mode := .auto, stale := false, lastHeard := none }
  s.withAge { s.age with void := false }

/-- The entry of the home zone 3 in ALARM. -/
def alarmEntry : ZoneEntry where
  cfg := some { home := 9, rank := 5, scenario := 7 }
  condition := .alarm
  copy := .home
  lastReport := none

/-- The station in ON-LINE. -/
def onLine : State := station .onLine

/-- The station with line 0 on zone 3 in a state with a reading. -/
def withLine (state : LineState) (reading : Reading) (toggles : Nat := 0) (timer window : Timer := none)
    (confirm : Nat := 50) : State :=
  onLine.setLine 0 { cfg := { (onLine.line 0).cfg with zone := some 3, confirm := confirm }, state := state,
                     reading := reading, timer := timer, window := window, toggles := toggles }

/-- The station with command line 1 of a function at a level, its raw level the other and its debounce expired. -/
def withCommand (function : CommandFunction) (raw : Level) (m : Mode := .onLine) : State :=
  (station m).setCommand 1 { function := function, raw := raw, debounced := otherLevel raw, timer := some 0 }

/-- A fire of a phase in the Scenario Record at epoch 10 with origin zone 3. -/
def withFire (phase : Phase) (s : State) : State :=
  s.withAge { s.age with view := { epoch := 10, phase := phase, escalated := false, origin := some 3, scenario := 7,
                                   step := 0, established := false } }

/-- A bulletin of a source first among those handed. -/
def withHanded (b : Bulletin) (src : Source) (s : State) : State :=
  s.withBsc { s.bsc with handed := [{ bulletin := b, src := src }] }

/-- Station 2 as the source of a received bulletin. -/
def peer : Source := { sender := 2, origin := .received }

/-- The own number as the source of a loopback. -/
def own : Source := { sender := 9, origin := .loopback }

/-- A damper record under a demand in a state with its limits, both settle intervals and the travel timer expired. -/
def damper (demand : Demand) (state : DamperState) (a b : Level) : Damper where
  energiseToShut := false
  travelLimit := 600
  demand := demand
  state := state
  drive := damperDrive false demand
  travel := some 0
  limitA := a
  limitB := b
  settleA := some 0
  settleB := some 0
  proofLost := false

/-- A fan record under a demand in a state, its timers expired. -/
def fan (demand : Demand) (state : FanState) (inputB : Level := .made) (attempts : Nat := 1) : Fan where
  interlock := 0
  proveTime := 300
  runDown := 300
  flowLoss := 50
  restarts := 1
  tripWhenMade := false
  demand := demand
  state := state
  drive := fanDrive state
  prove := some 0
  flow := some 0
  run := some 0
  uncommandedTimer := some 0
  attempts := attempts
  unmet := 0
  inputB := inputB
  settleB := some 0
  uncommanded := false
  noFlow := false
  flowLost := false

/-- The station with damper 3. -/
def withDamper (d : Damper) : State := onLine.setPoint 3 (.damper d)

/-- The station with fan 6. -/
def withFan (f : Fan) : State := onLine.setPoint 6 (.fan f)

/-- The station with a Transmit Queue and an attempt. -/
def withQueue (queue : List TxEntry) (attempt : Option Attempt) (s : State) : State :=
  s.withBsc { s.bsc with queue := queue, attempt := attempt }

/-- An entry of the Transmit Queue. -/
def entry (b : Bulletin) (attempts : Nat := 0) (inAttempt : Bool := false) : TxEntry where
  bulletin := b
  queuedAt := 0
  attempts := attempts
  inAttempt := inAttempt

/-- The next state of a step, the state itself where there is none. -/
def after (c : Instr) (s : State) : State :=
  match step (s.withPending [c]) with
  | .next t => t
  | _ => s

/-! ## Well-formed commands, and an ill-formed one for each check -/

/-- A frame of station 2, whole. -/
def goodFrame : Frame := assemble 2 (.standDown 5)

theorem test_wellFormed_accepts_whole_frame : wellFormed (.frameComplete goodFrame) = true := by decide +kernel
theorem test_wellFormed_refuses_unknown_kind : wellFormed (.frameComplete { goodFrame with kind := 10 }) = false := by
  decide +kernel
theorem test_wellFormed_refuses_length : wellFormed (.frameComplete { goodFrame with length := 3 }) = false := by
  decide +kernel
theorem test_wellFormed_refuses_payload : wellFormed (.frameComplete { goodFrame with payload := [0] }) = false := by
  decide +kernel
theorem test_wellFormed_refuses_check : wellFormed (.frameComplete { goodFrame with crc := goodFrame.crc + 1 }) = false := by
  decide +kernel
theorem test_wellFormed_accepts_damaged_frame : wellFormed (.frameError { goodFrame with crc := goodFrame.crc + 1 } false) = true := by
  decide +kernel
theorem test_wellFormed_refuses_good_frame_as_error : wellFormed (.frameError goodFrame false) = false := by decide +kernel
theorem test_wellFormed_refuses_short_payload : wellFormed (.frameError { goodFrame with payload := [0] } false) = false := by
  decide +kernel
theorem test_wellFormed_refuses_view_mode_3 : wellFormed (.view peer .presenceFirst 1 0x06 255 0 0 7) = false := by decide
theorem test_wellFormed_refuses_known_code : wellFormed (.unknownCommand 8) = false := by decide
theorem test_wellFormed_accepts_unknown_code : wellFormed (.unknownCommand 9) = true ∧ wellFormed (.unknownCommand 0) = true := by
  decide

/-! ## The check of frames and image, and the bus -/

/-- R160: the check value of the nine characters 123456789 is 0x29B1. -/
theorem test_check_value :
    crcOf (bitsOfBytes [0x31, 0x32, 0x33, 0x34, 0x35, 0x36, 0x37, 0x38, 0x39]) = 0x29B1 := by decide +kernel

theorem test_frame_comes_through :
    receiveFrame (assemble 31 (.stepDone 65535 31 8 1)) = some (.stepDone 65535 31 8 1) := by decide +kernel
theorem test_sync_request_comes_through : receiveFrame (assemble 0 .syncRequest) = some .syncRequest := by decide +kernel

theorem test_frameComplete_joins_fifo :
    (after (.frameComplete goodFrame) onLine).bsc.fifo = [{ bulletin := .standDown 5, src := peer }] := by decide +kernel
theorem test_transmitAttempt_begins :
    (after .transmitAttempt (withQueue [entry .syncRequest] none onLine)).bsc.attempt
      = some { sent := .syncRequest, replaced := false } := by decide +kernel
theorem test_transmitComplete_loops_back :
    (after .transmitComplete (withQueue [entry (.claim 1 3) 0 true] (some { sent := .claim 1 3, replaced := false })
      onLine)).bsc.fifo = [{ bulletin := .claim 1 3, src := own }] := by decide +kernel
theorem test_contentionYield_keeps_entry :
    (after (.contentionYield 3) (withQueue [entry (.claim 1 3) 2 true] (some { sent := .claim 1 3, replaced := false })
      onLine)).bsc.queue = [entry (.claim 1 3) 2 false] := by decide +kernel
theorem test_bitError_fourth_loses :
    (after (.bitError false) (withQueue [entry (.claim 1 3) 3 true] (some { sent := .claim 1 3, replaced := false })
      onLine)).flu.noteSeen = 1 <<< 20 := by decide +kernel

/-! ## Commands at small states -/

theorem test_resetEnd_samples : (after (.resetEnd 31) State.reset).cfl.station = some 31 := by decide +kernel
theorem test_imageLoad_blank_memory :
    (after (.imageLoad { memory := [], bands := Vector.replicate 8 .quiescentBand, contacts := Vector.replicate 8 .broken,
                         inputA := Vector.replicate 16 .broken, inputB := Vector.replicate 16 .broken })
      (State.reset.withCfl { State.reset.cfl with stage := .reading, station := some 9 })).prm.mode = .configFault := by
  decide +kernel
theorem test_readingEvent_confirms :
    ((after (.readingEvent 0 .contactBand) (withLine .normal .normal)).line 0).timer = some 500 := by decide +kernel
theorem test_lineTimerExpiry_claims :
    ((after (.lineTimerExpiry 0) (withLine .confirming .active 0 (some 0))).zone 3).condition = .alarm := by decide +kernel
theorem test_levelChange_stands_down :
    (after (.levelChange 1) (withFire .running (withCommand (.standDown false) .made))).bsc.queue.map (·.bulletin)
      = [.standDown 10] := by decide +kernel
theorem test_claim_opens_window :
    (after (.claim peer .presenceFirst 1 4) (withHanded (.claim 1 4) peer onLine)).age.window = some 300 := by decide +kernel
theorem test_override_takes_loopback :
    ((after (.override own .presenceFirst 0 1) (withHanded (.override 0 1) own onLine)).group 0).mode = .on := by
  decide +kernel
theorem test_damper_arrives :
    (after (.limitEvent 3 .inputA) (withDamper (damper .toOpen .opening .broken .broken))).point 3
      = .damper { damper .toOpen .isOpen .made .broken with travel := none, settleA := none } := by decide +kernel
theorem test_fan_trips :
    ((after (.tripEvent 6) (withFan (fan .run .running))).flu.holds .fanTrip 6) = true := by decide +kernel
theorem test_pulseEdge_below_millisecond_is_no_change :
    ((after (.pulseEdge 6 .made 3 999) (withFan (fan .run .starting))).measure 6).level = .broken
      ∧ ((after (.pulseEdge 6 .made 3 1000) (withFan (fan .run .starting))).measure 6).level = .made := by decide +kernel
theorem test_dominantTimerExpiry_before_interval :
    (after (.dominantTimerExpiry 249) onLine).bsc.linkStuck = false
      ∧ (after (.dominantTimerExpiry 249) onLine).bsc.dominant = some 1
      ∧ (after (.dominantTimerExpiry 250) onLine).bsc.linkStuck = true := by decide +kernel
theorem test_frameError_broken_off_on_stuck_line :
    let s := onLine.withBsc { onLine.bsc with linkStuck := true }
    (after (.frameError { goodFrame with endField := 0 } true) s).bsc.holdoff = none
      ∧ (after (.frameError { goodFrame with endField := 0 } false) s).bsc.holdoff = some 100 := by decide +kernel
theorem test_clearLog_result : (after .clearLog onLine).mnp.result = 0x11 := by decide +kernel
theorem test_writeTransfer_sets_pointer :
    (after (.writeTransfer 73 [0x01, 0x02]) onLine).mnp.pointer = 0x0102 := by decide +kernel
theorem test_step_idles_on_empty_queue : step State.reset = .next State.reset := rfl

/-! ## States that meet the hypotheses of the statements -/

theorem test_hyp_StepTakesFrontCommand : onLine.pending = [] := by decide +kernel

theorem test_hyp_ResetEndSamplesStraps :
    (State.reset.prm.mode = .starting ∧ State.reset.cfl.stage = .held)
      ∧ (onLine.prm.mode ≠ .starting ∨ onLine.cfl.stage ≠ .held) := by decide +kernel

/-- The station waiting for the read of its memory. -/
def reading : State := State.reset.withCfl { State.reset.cfl with stage := .reading, station := some 9 }

/-- An image for station 9: its timing, scenario 8 of one step, zone 15 with that scenario, line 0 on it, damper 3, and fan 6
interlocked with it. -/
def image : List Byte :=
  [0x5A, 0x53, 1, 9, 0, 89, 0, 24, 0, 0x9C, 0x40, 0x1D, 0x2F]
    ++ [1, 4, 0, 30, 0, 40, 2, 4, 15, 9, 52, 8, 3, 10, 8, 1, 0, 0, 0, 0, 2, 0, 4, 176]
    ++ [18, 10, 0, 15, 0, 0, 50, 0, 100, 5, 1, 0]
    ++ [20, 18, 3, 1, 255, 0, 2, 88, 0, 0, 0, 0, 0, 0, 0, 0, 0, 0, 0, 0]
    ++ [20, 18, 6, 2, 255, 0, 1, 44, 1, 44, 0, 50, 1, 0, 8, 1, 0, 200, 0, 0]

/-- The levels at acceptance with a memory. -/
def inputs (memory : List Byte) : StartInputs where
  memory := memory
  bands := Vector.replicate 8 .quiescentBand
  contacts := Vector.replicate 8 .broken
  inputA := Vector.replicate 16 .broken
  inputB := Vector.replicate 16 .broken

theorem test_hyp_RejectedImageGivesConfigFault :
    reading.prm.mode = .starting ∧ reading.cfl.stage = .reading ∧ reading.flu.active = [] ∧ reading.flu.late = []
      ∧ formatFailure (inputs []).memory = some 0
      ∧ ∃ f, checkImage (inputs []).memory reading.number = .error f := by
  refine ⟨by decide +kernel, by decide +kernel, by decide +kernel, by decide +kernel, by decide +kernel,
    { result := 2, offset := 0 }, ?_⟩
  rfl

set_option maxRecDepth 8192 in
theorem test_hyp_AcceptedImageGivesJoining :
    reading.prm.mode = .starting ∧ reading.cfl.stage = .reading
      ∧ (checkImage (inputs image).memory reading.number).toOption.isSome = true := by decide +kernel

set_option maxRecDepth 8192 in
/-- A bare station, and the records of a point of each type in the image of the tests; a trip input made and one broken. -/
theorem test_hyp_AcceptedImageGivesJoining_points :
    InactiveIsBare reading
      ∧ ((checkImage (inputs image).memory reading.number).toOption.any fun i =>
          findRecord i.records 20 0 == none && (findRecord i.records 20 3).any (fun r => r.b 1 == 1)
            && (findRecord i.records 20 6).any fun r => r.b 1 == 2 && r.w 11 == 8 && !(BitVec.ofNat 8 (r.b 3)).getLsbD 1) = true
      ∧ (Level.broken = .made ↔ false = true) ∧ ¬(Level.made = .made ↔ false = true) := by
  refine ⟨by unfold InactiveIsBare; decide +kernel, by decide +kernel, by decide, by decide⟩

theorem test_hyp_TickCountsTimers :
    State.reset.isActive = false ∧ onLine.isActive = true
      ∧ (withDamper (damper .toOpen .opening .broken .made)).point 3 = .damper (damper .toOpen .opening .broken .made)
      ∧ (withFan (fan .run .starting)).point 6 = .fan (fan .run .starting)
      ∧ onLine.point 0 = .unused (UnusedPoint.reset .broken .broken) := by decide +kernel

/-- The station with faults whose onsets are late. -/
def withLate (late : List FaultName) (s : State) : State :=
  s.withFlu { s.flu with late := late }

/-- The samples of a tick at rest, with the onsets that stay on the way. -/
def quietTick (late : List FaultName) : TickSamples where
  inputA := Vector.replicate 16 .broken
  inputB := Vector.replicate 16 .broken
  line := .recessive
  heldBits := 2000
  quietBits := some 2000
  late := late

/-- Two groups on the way, one that the tick lets through and one of which it keeps what stands from a late onset on; and a state
of the tick's time with room for an onset. -/
theorem test_hyp_TickCountsTimers_late :
    let jammed : FaultReport := .onset .damperJammed 3 .none false
    let tripped : FaultReport := .onset .fanTrip 6 .none false
    let named := FaultKind.damperJammed.named 3
    let s := onLine.withFlu { onLine.flu with waiting := [[.onset .rxLoss 255 .none true, jammed, tripped], [tripped]] }
    let t := after (.tick (quietTick [named])) s
    t.flu.waiting = [[jammed, tripped]] ∧ t.flu.active.map (fun e => (e.kind, e.onset)) = [(.fanTrip, t.now)]
      ∧ t.now = (after (.tick (quietTick [])) onLine).now
      ∧ has t.flu.noteSeen FaultKind.rxLoss.code = true ∧ t.onsetTaken .damperJammed 3 false = true
      ∧ t.flu.active.length < 32 := by decide +kernel

/-- R177: what the PTC and the BSC hand behind a late onset of the same event waits with it, in the order handed. A fan trips in
STARTING and the grant ends the uncommanded flow of another; the number is duplicated in a frame that the full FIFO loses. -/
theorem test_reports_of_one_event_keep_their_order :
    let clears : FaultReport := .clear .fanUncommanded 7
    let two := (withFan (fan .run .starting)).setPoint 7 (.fan { fan .run .queued with uncommanded := true })
    let two := (two.withPtc { two.ptc with startQueue := [7] }).onset .fanUncommanded 7 .none false
    let s := after (.tripEvent 6) (withLate [FaultKind.fanTrip.named 6] two)
    let full := List.replicate 8 { bulletin := .syncRequest, src := peer : RxEntry }
    let d := after (.frameComplete (assemble 9 (.claim 1 3)))
      (withLate [FaultKind.duplicateStation.named 9] (onLine.withBsc { onLine.bsc with fifo := full }))
    (s.point 7).isStarting = true ∧ s.flu.waiting.map (fun g => g.drop 1) = [[clears]] ∧ s.flu.holds .fanUncommanded 7 = true
      ∧ (after (.tick (quietTick [])) s).flu.active.map (·.kind) = [.fanTrip]
      ∧ d.flu.waiting.map (fun g => g.drop 1) = [[.onset .rxLoss 255 .none true]] ∧ d.flu.active = [] ∧ d.flu.noteSeen = 0
      ∧ (after (.tick (quietTick [])) d).flu.active.map (·.kind) = [.duplicateStation]
      ∧ has (after (.tick (quietTick [])) d).flu.noteSeen FaultKind.rxLoss.code = true := by decide +kernel

/-- The clear of DAMPER-JAMMED overtakes its onset: the damper is OPEN, and the table holds the fault (R115, R178). -/
theorem test_clear_overtakes_onset :
    let s := withLate [FaultKind.damperJammed.named 3] (withDamper (damper .toOpen .opening .broken .broken))
    let jammed := after (.travelTimerExpiry 3) s
    let arrived := after (.limitEvent 3 .inputA) jammed
    let taken := after (.tick (quietTick [])) arrived
    (jammed.point 3).report.map (·.state) = some (.damper .jammed) ∧ jammed.flu.active = []
      ∧ (arrived.point 3).report.map (·.state) = some (.damper .isOpen) ∧ arrived.flu.active = []
      ∧ taken.flu.holds .damperJammed 3 = true
      ∧ (after (.limitEvent 3 .inputA) (after (.travelTimerExpiry 3) (withLate [] s))).flu.active = [] := by decide +kernel

/-- A reading event that changes the reading of line 0, which has a zone. -/
def readsAs (s : State) (band : Band) (reading : Reading) : Bool :=
  s.isActive && (s.line 0).cfg.zone != none && readingOf (s.line 0).cfg.normallyClosed band == reading
    && (s.line 0).reading != reading

theorem test_hyp_DetectionLineMoves :
    readingOf ((withLine .normal .normal).line 0).cfg.normallyClosed .quiescentBand = ((withLine .normal .normal).line 0).reading
      ∧ readsAs (withLine .isolated .normal) .contactBand .active
      ∧ readsAs (withLine .normal .normal) .openBand .openCircuit ∧ readsAs (withLine .active .active) .shortBand .shortCircuit
      ∧ readsAs (withLine .normal .normal) .contactBand .active
      ∧ readsAs (withLine .normal .normal 0 none none 0) .contactBand .active
      ∧ readsAs (withLine .openFault .openCircuit) .contactBand .active
      ∧ readsAs (withLine .shortFault .shortCircuit) .contactBand .active
      ∧ readsAs (withLine .openFault .openCircuit) .quiescentBand .normal
      ∧ (readsAs (withLine .confirming .active 3 (some 9)) .quiescentBand .normal ∧ 3 + 1 < 5)
      ∧ (readsAs (withLine .confirming .active 4 (some 9)) .quiescentBand .normal ∧ 5 ≤ 4 + 1)
      ∧ readsAs (withLine .active .active) .quiescentBand .normal
      ∧ readsAs (withLine .clearing .normal 0 (some 9)) .contactBand .active
      ∧ readsAs (withLine .chatter .active) .quiescentBand .normal
      ∧ readsAs (withLine .chatter .normal 0 (some 9)) .contactBand .active := by
  decide +kernel

/-- Home zone 3 with a line newly active or in fault, in each case of what its condition is handed on to. -/
theorem test_hyp_DetectionLineMoves_zone :
    let s := withLine .active .active
    let fresh (s : State) (c : Condition) : Prop :=
      s.isHome 3 = true ∧ s.liu.lastCondition[(3 : ZoneId)] ≠ c ∧ s.deriveCondition 3 = c
        ∧ s.bsc.queue.Pairwise fun x y => x.bulletin.cls ≤ y.bulletin.cls
    let changes (s : State) (c : Condition) : Prop := fresh s c ∧ (s.zone 3).condition ≠ c ∧ s.bsc.queue.length < 8
    (changes s .alarm ∧ s.prm.mode = .onLine ∧ s.age.view.phase = .idle)
      ∧ (fresh (s.setZone 3 alarmEntry) .alarm ∧ ((s.setZone 3 alarmEntry).zone 3).condition = .alarm)
      ∧ changes (withLine .openFault .openCircuit) .fault
      ∧ (let s := s.withPrm { s.prm with mode := .joiningAfterReset }
         changes s .alarm ∧ s.prm.mode.joined = false)
      ∧ (let s := withFire .gathering s
         changes s .alarm ∧ s.prm.mode.joined = true ∧ s.age.view.phase = .gathering ∧ (3 : ZoneId) ∉ s.age.candidates
          ∧ (3 : ZoneId) ∉ s.age.subsequent ∧ (3 : ZoneId) ∈ (s.withAge { s.age with candidates := [3] }).age.candidates)
      ∧ (let s := withFire .running s
         changes s .alarm ∧ s.prm.mode.joined = true ∧ s.age.view.phase = .running)
      ∧ (let s := s.withPrm { s.prm with mode := .island }
         changes s .alarm ∧ s.prm.mode = .island ∧ s.age.view.phase = .idle)
      ∧ onLine.isHome 4 = false := by
  refine ⟨?_, ?_, ?_, ?_, ?_, ?_, ?_, ?_⟩ <;> decide +kernel

theorem test_hyp_DetectionLineMoves_expiry :
    ∀ x ∈ [LineState.confirming, .clearing, .chatter], (withLine x .active 0 (some 0)).isActive = true
      ∧ ((withLine x .active 0 (some 0)).line 0).timer = some 0 ∧ ((withLine x .active 0 (some 0)).line 0).state = x := by
  decide +kernel

theorem test_hyp_ClearingLineReturns :
    readsAs (withLine .active .active) .quiescentBand .normal
      ∧ readsAs (withLine .clearing .normal 0 (some 9)) .contactBand .active
      ∧ ((withLine .clearing .normal 0 (some 0)).line 0).timer = some 0
      ∧ readsAs (withLine .clearing .normal 0 (some 0)) .contactBand .active
      ∧ ((withLine .clearing .normal).line 0).cfg.zone = some 3 ∧ (withLine .clearing .normal).inTest 0 = false := by
  decide +kernel

theorem test_hyp_ChatterWindowCounts :
    readsAs (withLine .normal .normal 2 none (some 300)) .contactBand .active
      ∧ ((withLine .confirming .active 4 (some 9) (some 0)).line 0).window = some 0
      ∧ readsAs (withLine .confirming .active 4 (some 9) (some 0)) .quiescentBand .normal
      ∧ readsAs (withLine .confirming .active 3 (some 9) (some 0)) .quiescentBand .normal
      ∧ readsAs (withLine .active .active) .openBand .openCircuit
      ∧ (((withLine .active .active).line 0).state ≠ .isolated ∧ (withLine .active .active).prm.mode.joined = true
          ∧ (withLine .active .active).age.view.phase = .idle) := by
  decide +kernel

/-- Line 0 of zone 3 counts as active, in fault, or isolated. -/
theorem test_hyp_ZoneConditionFromLines :
    (∃ l : LineId, ((withLine .active .active).line l).cfg.zone = some 3
        ∧ ((withLine .active .active).line l).state.inActive = true ∧ (withLine .active .active).inTest l = false)
      ∧ (∃ l : LineId, ((withLine .openFault .openCircuit).line l).cfg.zone = some 3
          ∧ ((withLine .openFault .openCircuit).line l).state.inFault = true)
      ∧ (∃ l : LineId,
          let s := (withLine .active .active).withLiu { (withLine .active .active).liu with
            session := some { lines := 1, timer := some 9 } }
          (s.line l).cfg.zone = some 3 ∧ (s.line l).state.inActive = true ∧ s.inTest l = true)
      ∧ (∀ l : LineId, ((withLine .isolated .normal).line l).cfg.zone = some 3 →
          ((withLine .isolated .normal).line l).state = .isolated)
      ∧ (withLine .active .active).deriveCondition 3 = .alarm
      ∧ (withLine .openFault .openCircuit).deriveCondition 3 = .fault
      ∧ (withLine .isolated .normal).deriveCondition 3 = .isolated
      ∧ (withLine .normal .normal).deriveCondition 3 = .quiet := by decide +kernel

theorem test_hyp_CommandLineDebounces :
    (let s := withCommand .unused .made; s.isActive = true ∧ (s.liu.commands[(1 : LineId)]).function = .unused)
      ∧ (let s := withCommand (.standDown false) .made
         (s.liu.commands[(1 : LineId)]).timer = some 0 ∧ Level.broken ≠ (s.liu.commands[(1 : LineId)]).raw
          ∧ s.age.view.phase = .idle)
      ∧ (let s := withCommand (.standDown true) .broken .joiningAfterReset
         s.isActive = true ∧ s.prm.mode.joined = false ∧ (s.liu.commands[(1 : LineId)]).timer = some 0)
      ∧ (let s := withFire .running (withCommand (.standDown false) .made)
         s.prm.mode.joined = true ∧ s.age.view.phase ≠ .idle ∧ s.alarmsHeard = [] ∧ s.bsc.queue.length < 8)
      ∧ (let s := (withFire .running (withCommand (.standDown false) .made)).setZone 3 alarmEntry
         s.prm.mode.joined = true ∧ s.age.view.phase ≠ .idle ∧ s.alarmsHeard ≠ []
          ∧ (s.zone 3).copy ≠ .unheard ∧ (s.zone 3).condition = .alarm ∧ s.severity .standDownRefused = .note)
      ∧ (let s := withCommand (.groupOn 0) .made
         s.ownsGroup 0 = true ∧ s.ovu.localApply = false
          ∧ s.liu.lastRequested[(0 : GroupId)] ≠ (s.setCommand 1 { s.liu.commands[(1 : LineId)] with
              debounced := .made, timer := none }).deriveRequested 0) := by
  decide +kernel

theorem test_hyp_CommandLineDebounces_table :
    (∀ f ∈ [CommandFunction.groupOn 0, .groupOff 0],
      let s := onLine.setCommand 1 { function := f, raw := .made, debounced := .made, timer := none }
      (s.liu.commands[(1 : LineId)]).function = f ∧ (s.liu.commands[(1 : LineId)]).debounced = .made)
      ∧ ∀ k : LineId, (onLine.liu.commands[k]).function = .unused := by decide +kernel

theorem test_hyp_IsolateAndRestoreLine :
    (∀ x ∈ [(LineState.normal, Reading.normal), (.openFault, .openCircuit), (.shortFault, .shortCircuit), (.chatter, .active),
        (.isolated, .normal), (.isolated, .active), (.isolated, .openCircuit), (.isolated, .shortCircuit)],
      let s := withLine x.1 x.2
      (0 : BitVec 16).toNat = (0 : LineId).val ∧ s.prm.mode.joined = true ∧ s.age.view.phase = .idle
        ∧ (s.line 0).cfg.zone ≠ none ∧ (s.line 0).state = x.1 ∧ (s.line 0).reading = x.2)
      ∧ ((withLine .isolated .active 0 none none 0).line 0).cfg.confirm = 0
      ∧ (station .joiningAfterReset).prm.mode.joined = false
      ∧ ((withFire .running onLine).prm.mode.joined = true ∧ (withFire .running onLine).age.view.phase ≠ .idle)
      ∧ (∀ l : LineId, (7 : BitVec 16).toNat = l.val → (onLine.line l).cfg.zone = none)
      ∧ (∀ l : LineId, (8 : BitVec 16).toNat = l.val → (onLine.line l).cfg.zone = none) := by decide +kernel

theorem test_hyp_WalkTestStartsAndEnds :
    (let s := withLine .normal .normal
     s.prm.mode.joined = true ∧ s.age.view.phase = .idle ∧ (1 : BitVec 16).toNat < 256 ∧ (1 : BitVec 16) ≠ 0
      ∧ (∀ l : LineId, has (1 : BitVec 16) l.val = true → (s.line l).cfg.zone ≠ none) ∧ s.liu.session = none
      ∧ (∀ z : ZoneId, s.isHome z = true → (s.zone z).condition = s.deriveCondition z
          ∧ s.liu.lastCondition[z] = s.deriveCondition z))
      ∧ (station .starting).prm.mode.joined = false ∧ (withFire .gathering onLine).age.view.phase ≠ .idle
      ∧ ¬(256 : BitVec 16).toNat < 256
      ∧ (∃ l : LineId, has (2 : BitVec 16) l.val = true ∧ ((withLine .normal .normal).line l).cfg.zone = none)
      ∧ ((withLine .chatter .active).line 0).state = .chatter := by decide +kernel

theorem test_hyp_WalkTestStartsAndEnds_ends :
    onLine.isActive = true ∧ State.reset.isActive = false ∧ onLine.liu.session = none
      ∧ (onLine.withLiu { onLine.liu with session := some { lines := 1, timer := some 0 } }).liu.session
          = some { lines := 1, timer := some 0 } := by decide +kernel

theorem test_hyp_ClearLogEmptiesRecords :
    (onLine.onsetTaken .fanTrip 6 false = true ∧ onLine.severity .fanTrip = .critical)
      ∧ onLine.onsetTaken .lineOpen 0 false = true ∧ onLine.severity .lineOpen = .trouble := by decide +kernel

theorem test_hyp_LinkRestartEmptiesQueues :
    State.reset.isActive = false ∧ onLine.isActive = true ∧ onLine.escalationTarget = none
      ∧ onLine.age.subsequent.length ≤ 8
      ∧ (let s := (withFire .running onLine).withAge { (withFire .running onLine).age with subsequent := [4] }
         let s := s.withSts { s.sts with programs := put s.sts.programs 7 { s.sts.programs[(7 : ScenarioId)] with
           escalationCount := 1, escalationTarget := some 8 } }
         s.isActive = true ∧ ∃ c, (s.withAge { s.age with escalationEpoch := none }).escalationTarget = some c) := by
  decide +kernel

theorem test_hyp_PageAndUnknownCommand :
    (15 : BitVec 16).toNat < 16 ∧ 16 ≤ (16 : BitVec 16).toNat ∧ ((0 : Byte) = 0 ∨ 8 < (0 : Byte).toNat)
      ∧ ((9 : Byte) = 0 ∨ 8 < (9 : Byte).toNat) ∧ (15 : Byte).toNat < 16 := by decide

theorem test_hyp_WriteTransferWritesRegisters :
    State.reset.cfl.station = none ∧ (∃ n, onLine.cfl.station = some n ∧ (72 : BitVec 7).toNat ≠ 64 + n.val)
      ∧ (∃ n, onLine.cfl.station = some n ∧ (73 : BitVec 7).toNat = 64 + n.val)
      ∧ ((0xFF : Byte) ++ (0xFF : Byte) : BitVec 16) ≠ 0x10 ∧ ((0 : Byte) ++ (0x13 : Byte) : BitVec 16) ≠ 0x12 := by
  refine ⟨by decide +kernel, ⟨9, by decide +kernel⟩, ⟨9, by decide +kernel⟩, by decide, by decide⟩

theorem test_hyp_ReadTransferServesWindow :
    State.reset.cfl.station = none ∧ (∃ n, onLine.cfl.station = some n ∧ (73 : BitVec 7).toNat = 64 + n.val) := by
  refine ⟨by decide +kernel, 9, by decide +kernel⟩

/-- The station in GATHERING with an entry of most tables: lists, timers, a session, points, queues, faults and records. -/
def shown : State :=
  let s := withQueue [entry .syncRequest] none (withFire .gathering (withFan (fan .run .queued)))
  let s := s.setPoint 3 (.damper { damper .toOpen .opening .broken .broken with travel := some 6000 })
  let s := s.withAge { s.age with candidates := [3], subsequent := [4], window := some 300, escalationEpoch := some 11 }
  let s := s.withLiu { s.liu with session := some { lines := 1, timer := some 360000 } }
  let s := s.withPtc { s.ptc with startQueue := [6], gap := some 500 }
  let s := s.withBsc { s.bsc with dominant := some 125, recovery := some 1250 }
  let s := s.setPresence 2 { s.presence 2 with
    summary := some (summaryOf 10 0x86 3 7 0), digest := some 7, lastHeard := some 65535 }
  let s := s.setMeasure 6 { Pmu.reset with lastHigh := some 120, lastLow := some 80, periods := [(120, 80)], count := 1,
                                           noEdge := some 2000 }
  (s.onset .fanTrip 6 .none false).onset .lineOpen 0 (.line .openFault) false

theorem test_hyp_WindowShowsState_lists :
    shown.age.candidates.length ≤ 8 ∧ shown.age.subsequent.length ≤ 8 ∧ shown.age.window = some (10 * 30)
      ∧ shown.sts.stepTimer = none := by decide +kernel
theorem test_hyp_WindowShowsState_session :
    shown.liu.session = some { lines := 1, timer := some 360000 } ∧ onLine.liu.session = none := by decide +kernel
theorem test_hyp_WindowShowsState_points :
    shown.point 0 = .unused (UnusedPoint.reset .broken .broken)
      ∧ shown.point 3 = .damper { damper .toOpen .opening .broken .broken with travel := some (10 * 600) }
      ∧ shown.point 6 = .fan (fan .run .queued) ∧ (shown.point 6).isFan = true ∧ (shown.point 3).isFan = false := by
  decide +kernel
theorem test_hyp_WindowShowsState_measures :
    (shown.measure 6).lastHigh = some 120 ∧ 120 < 65536 ∧ (shown.measure 6).noEdge = some 2000
      ∧ (onLine.measure 6).noEdge = none ∧ (onLine.measure 6).lastHigh = none := by decide +kernel
theorem test_hyp_WindowShowsState_queues :
    shown.ptc.startQueue.length ≤ 16 ∧ shown.bsc.queue.length ≤ 8 ∧ shown.bsc.dominant = some (125 * 1)
      ∧ shown.bsc.recovery = some (125 * 10) ∧ onLine.bsc.dominant = none
      ∧ (∀ p : PointId, (shown.point p).isStarting = false)
      ∧ ((withFan (fan .run .starting)).point 6).isStarting = true := by decide +kernel
theorem test_hyp_WindowShowsState_records :
    shown.flu.firstCritical.isSome = true ∧ shown.flu.firstTrouble.isSome = true ∧ onLine.flu.firstCritical = none
      ∧ (9 : Fin 128).val = 8 * (1 : Fin 16).val + (1 : Fin 8).val := by decide +kernel

theorem test_window_record : shown.windowBytes 0x0020 11 = [0, 10, 1, 0, 3, 7, 0, 0, 0, 1, 3] := by decide +kernel
/-- The last digest and the durations stand behind their flag bytes, in the sixteen bytes of an entry (R193). -/
theorem test_window_flag_bytes :
    shown.windowBytes 0x032D 4 = [1, 0, 7, 0] ∧ onLine.windowBytes 0x032D 4 = [0, 255, 255, 0]
      ∧ shown.windowBytes 0x0865 11 = [1, 0, 200, 1, 0, 120, 1, 0, 80, 0x07, 0xD0] := by decide +kernel
theorem test_window_last_heard_skips_none : shown.windowBytes 0x0321 2 = [0xFF, 0xFE] := by decide +kernel

/-- A bulletin first handed to a station that takes it. -/
def first (b : Bulletin) (src : Source) (s : State) : Prop :=
  FirstHanded (withHanded b src s) b src []

/-- The station in ISLAND, whose point demands are as the view gives them. -/
def islanded : State :=
  let s := station .island
  s.withSts { s.sts with viewSettled := true }

/-- Station 2 and another digest of it heard in ISLAND, with each bulletin. -/
theorem test_hyp_SenderIsNoted_island :
    (∀ b ∈ [Bulletin.syncRequest, .faultNotice 1 2 3, .claim 1 4, .escalate 1 4 8, .standDown 0, .zoneReport 4 1, .override 1 2,
        .stepDone 10 8 1 1], first b peer islanded ∧ first b own islanded)
      ∧ peer.sender ≠ islanded.number ∧ islanded.prm.mode = .island ∧ Matches islanded 2 ∧ islanded.severity .island ≠ .masked
      ∧ islanded.sts.viewSettled = true ∧ (∀ p : PointId, islanded.sts.demands[p] = islanded.demandOf p)
      ∧ islanded.bsc.queue.length ≤ 3
      ∧ (let s := islanded.setPoint 6 (.fan (fan .rest .stopped))
         (s.point 6).isUnused = false ∧ s.groupMode 6 = .auto)
      ∧ ¬Matches (islanded.setPresence 2 { islanded.presence 2 with digest := some 8 }) 2
      ∧ (first (.view 1 0 255 0 0 7) peer islanded ∧ islanded.cfl.digest = some 7 ∧ islanded.cfl.digest ≠ some 8) := by
  unfold first FirstHanded Matches; decide +kernel

theorem test_hyp_ClaimIsTaken :
    (first (.claim 1 4) peer onLine ∧ onLine.zoneOfByte 4 = some 4 ∧ ahead 1 onLine.age.view.epoch = true)
      ∧ (first (.claim 0 4) peer (onLine.withAge { onLine.age with void := true })
          ∧ (onLine.withAge { onLine.age with void := true }).age.void = true)
      ∧ (first (.claim 0 4) peer onLine ∧ onLine.age.void = false ∧ ahead 0 onLine.age.view.epoch = false)
      ∧ (let s := withFire .gathering onLine
         let full := s.withAge { s.age with candidates := [5, 6, 7, 8, 9, 10, 11, 12] }
         first (.claim 10 4) peer s ∧ s.age.void = false ∧ ahead 10 s.age.view.epoch = false ∧ s.age.view.epoch = 10
          ∧ s.age.view.phase = .gathering ∧ (4 : ZoneId) ∉ s.age.candidates ∧ (4 : ZoneId) ∉ s.age.subsequent
          ∧ s.age.candidates.length < 8 ∧ s.age.view.origin = some 3 ∧ 8 ≤ full.age.candidates.length
          ∧ (4 : ZoneId) ∉ full.age.candidates ∧ (5 : ZoneId) ∈ full.age.candidates)
      ∧ (let s := withFire .running onLine
         first (.claim 10 4) peer s ∧ ahead 10 s.age.view.epoch = false ∧ s.age.view.phase = .running) := by
  unfold first FirstHanded; decide +kernel

/-- A CLAIM ignored, in IDLE at the own epoch and behind it, and one discarded. -/
theorem test_hyp_ClaimIsTaken_ignored :
    (let s := withFire .running onLine
     first (.claim 0 4) own onLine ∧ onLine.age.view.epoch = 0 ∧ onLine.age.view.phase = .idle ∧ onLine.prm.mode ≠ .island
      ∧ own.sender = onLine.number ∧ Matches onLine 9 ∧ onLine.bsc.queue.length < 8
      ∧ first (.claim 9 4) own s ∧ s.zoneOfByte 4 = some 4 ∧ ahead 9 s.age.view.epoch = false ∧ 9 ≠ s.age.view.epoch)
      ∧ (first (.claim 1 64) peer onLine ∧ 64 ≤ (64 : Byte).toNat)
      ∧ (first (.claim 1 5) own onLine ∧ ∀ z : ZoneId, (5 : Byte).toNat = z.val → (onLine.zone z).cfg = none) := by
  unfold first FirstHanded Matches; decide +kernel

/-- R49: the VIEW queued for a CLAIM behind the own epoch. -/
theorem test_claim_behind_is_answered :
    let t := after (.claim own .presenceFirst 9 4) (withHanded (.claim 9 4) own (withFire .running onLine))
    t.bsc.queue.map (·.bulletin) = [t.viewBulletin] ∧ t.age.subsequent = [] := by decide +kernel

/-- A running fire heard at epoch 1 with origin zone 4, at its first step. -/
def heardFire (escalated : Bool) : View where
  epoch := 1
  phase := .running
  escalated := escalated
  origin := some 4
  scenario := 8
  step := 1
  established := false

theorem test_hyp_EscalateIsTaken :
    (let s := withHanded (.escalate 1 4 8) peer onLine
     FirstHanded s (.escalate 1 4 8) peer [] ∧ Matches s 2
      ∧ ∃ v, s.escalateView 1 4 8 = some v ∧ s.adopts v = true) := by
  unfold FirstHanded Matches
  exact ⟨by decide +kernel, by decide +kernel, heardFire true, by decide +kernel⟩

/-- The station running the fire of `heardFire`, the record of the sequencer with it, with station 2 LIVE. -/
def running (escalated : Bool) (step : StepId := 1) : State :=
  let s := onLine.withAge { onLine.age with view := { heardFire escalated with step := step } }
  let s := s.withSts { s.sts with
    programs := put s.sts.programs 8 { s.sts.programs[(8 : ScenarioId)] with stepCount := 3 }
    phase := .running, epoch := 1, scenario := 8, step := step, viewSettled := true }
  s.setPresence 2 { s.presence 2 with state := .live, digest := some 7 }

/-- Escalated views one epoch ahead of a RUNNING view not escalated, with the own origin and with another; and one at a new epoch
where no walk test runs. -/
theorem test_hyp_EscalateIsTaken_lists :
    (let s := running false
     let v : View := { heardFire true with epoch := 2 }
     first (.escalate 2 4 8) peer s ∧ Matches s 2 ∧ s.escalateView 2 4 8 = some v ∧ s.adopts v = true
      ∧ s.age.view.phase = .running ∧ s.age.view.escalated = false ∧ s.age.view.epoch + 1 = 2 ∧ s.age.view.origin = v.origin)
      ∧ (let s := (running false).withAge { (running false).age with
           view := { (running false).age.view with origin := some 3 }, subsequent := [4, 5] }
         first (.escalate 2 4 8) peer s ∧ s.adopts { heardFire true with epoch := 2 } = true ∧ s.age.view.origin = some 3
          ∧ (4 : ZoneId) ≠ 3 ∧ s.severity .viewDispute = .note
          ∧ (after (.escalate peer .presenceFirst 2 4 8) (withHanded (.escalate 2 4 8) peer s)).age.subsequent = [3, 5])
      ∧ (onLine.age.view.phase ≠ .running ∧ onLine.liu.session = none) := by
  unfold first FirstHanded Matches; decide +kernel

theorem test_hyp_EscalateIsTaken_equal :
    first (.escalate 1 4 8) peer (running true) ∧ Matches (running true) 2
      ∧ (running true).escalateView 1 4 8 = some (heardFire true) ∧ (running true).adopts (heardFire true) = false
      ∧ (running true).prm.mode ≠ .island ∧ ((running true).presence 2).state = .live
      ∧ (running true).bsc.queue.length < 8
      ∧ (running true).greater (running true).age.view (heardFire true) = false := by
  unfold first FirstHanded Matches; decide +kernel

theorem test_hyp_EscalateIsTaken_lesser :
    first (.escalate 0 4 8) peer (running true)
      ∧ (running true).escalateView 0 4 8 = some { heardFire true with epoch := 0 }
      ∧ (running true).adopts { heardFire true with epoch := 0 } = false
      ∧ (running true).greater (running true).age.view { heardFire true with epoch := 0 } = true := by
  unfold first FirstHanded; decide +kernel

theorem test_hyp_EscalateIsTaken_discarded :
    first (.escalate 1 64 8) peer onLine ∧ onLine.escalateView 1 64 8 = none
      ∧ ¬Matches (onLine.setPresence 2 { onLine.presence 2 with digest := some 8 }) 2 := by
  unfold first FirstHanded Matches; decide +kernel

theorem test_hyp_StandDownIsTaken :
    (let s := withHanded (.standDown 10) peer (withFire .running onLine)
     FirstHanded s (.standDown 10) peer [] ∧ Matches s 2 ∧ s.adopts (idleView 10) = true
      ∧ (s.prm.mode ≠ .island ∨ s.homeAlarms = []))
      ∧ (let s := (withHanded (.standDown 10) own (withFire .running (station .island))).setZone 3 alarmEntry
         FirstHanded s (.standDown 10) own [] ∧ Matches s 9 ∧ s.adopts (idleView 10) = true ∧ s.homeAlarms = [3]) := by
  unfold FirstHanded Matches; decide +kernel

theorem test_hyp_StandDownIsTaken_notAdopted :
    (first (.standDown 0) own onLine ∧ onLine.adopts (idleView 0) = false ∧ own.sender = onLine.number
        ∧ onLine.prm.mode ≠ .island ∧ onLine.bsc.queue.length < 8
        ∧ onLine.greater onLine.age.view (idleView 0) = false)
      ∧ (first (.standDown 65535) own onLine ∧ onLine.adopts (idleView 65535) = false
          ∧ onLine.greater onLine.age.view (idleView 65535) = true)
      ∧ ¬Matches (onLine.setPresence 2 { onLine.presence 2 with digest := some 8 }) 2 := by
  unfold first FirstHanded Matches; decide +kernel

theorem test_hyp_ZoneReportWritesCopy :
    first (.zoneReport 4 1) peer onLine ∧ (4 : Byte).toNat = (4 : ZoneId).val ∧ (1 : Byte) = Condition.alarm.code
      ∧ (onLine.zone 4).cfg = some { home := 2, rank := 8, scenario := 8 } ∧ (onLine.zone 4).copy ≠ .home
      ∧ Matches onLine 2 ∧ first (.zoneReport 64 1) peer onLine ∧ 64 ≤ (64 : Byte).toNat
      ∧ first (.zoneReport 4 5) peer onLine ∧ 4 < (5 : Byte).toNat
      ∧ first (.zoneReport 3 1) own onLine ∧ (onLine.zone 3).copy = .home := by
  unfold first FirstHanded Matches; decide +kernel

theorem test_hyp_OverrideSetsGroup :
    (first (.override 1 2) peer onLine ∧ (1 : Byte).toNat = (1 : GroupId).val ∧ (2 : Byte) = GroupMode.off.code
      ∧ (onLine.group 1).owner = some 2 ∧ peer.sender ≠ onLine.number ∧ Matches onLine 2)
      ∧ (first (.override 0 1) own onLine ∧ (onLine.group 0).owner = some own.sender ∧ own.origin = .loopback)
      ∧ (let s := (withFan (fan .stop .stopped)).withSts { onLine.sts with points := put onLine.sts.points 6 {
          onLine.sts.points[(6 : PointId)] with group := some 1 } }
         (s.sts.points[(6 : PointId)]).group = some 1 ∧ (s.point 6).isFan = true ∧ GroupMode.on ≠ (s.group 1).mode)
      ∧ (let s := (withDamper (damper .rest .mid .broken .broken)).withSts { onLine.sts with points := put onLine.sts.points 3 {
          onLine.sts.points[(3 : PointId)] with group := some 1 } }
         (s.sts.points[(3 : PointId)]).group = some 1 ∧ (s.point 3).isDamper = true)
      ∧ (first (.override 16 1) peer onLine ∧ 16 ≤ (16 : Byte).toNat)
      ∧ (first (.override 1 3) peer onLine ∧ 2 < (3 : Byte).toNat)
      ∧ first (.override 0 1) { own with origin := .received } onLine ∧ (onLine.group 0).owner ≠ some 2 := by
  unfold first FirstHanded Matches; decide +kernel

theorem test_hyp_ViewUpdatesPresence :
    first (.view 1 0 255 0 0 7) peer onLine ∧ peer.sender ≠ onLine.number ∧ onLine.cfl.digest = some 7
      ∧ first (.view 1 0 255 0 0 8) own onLine ∧ own.sender = onLine.number := by
  unfold first FirstHanded; decide +kernel

/-- Station 2 in a presence state with a digest. -/
def withPeer (state : Presence) (digest : Option (BitVec 16)) (s : State) : State :=
  s.setPresence 2 { s.presence 2 with state := state, digest := digest, age := some 0, lastHeard := some 60 }

/-- Peers whose state a bulletin changes, one of them configured. -/
theorem test_hyp_ViewUpdatesPresence_faults :
    (∀ x ∈ [Presence.unknown, .live, .absent, .mismatched],
      ((withPeer x none onLine).presence 2).state = x ∧ has (withPeer x none onLine).prm.configured 2 = true
        ∧ first (.view 1 0 255 0 0 7) peer (withPeer x none onLine) ∧ first (.view 1 0 255 0 0 8) peer (withPeer x none onLine))
      ∧ onLine.cfl.digest ≠ some 8 ∧ onLine.severity .stationAbsent ≠ .masked ∧ onLine.severity .configMismatch ≠ .masked := by
  unfold first FirstHanded; decide +kernel

/-- R73: a MISMATCHED peer falls silent: its group is stale, and the clear of CONFIG-MISMATCH is traced before the onset of
STATION-ABSENT. -/
theorem test_presence_faults_in_order :
    let s := (withPeer .mismatched (some 8) onLine).onset .configMismatch 2 (.station (some 60)) false
    let t := after (.ageTimerExpiry 2) s
    t.flu.active.map (·.kind) = [.stationAbsent]
      ∧ (t.flu.trace.toList.filterMap id).map (fun e => (e.kind, e.value1)) =
          [(.modeChanged, 255), (.faultOnset, byteOf FaultKind.configMismatch.code), (.overrideChanged, 0),
           (.faultClear, byteOf FaultKind.configMismatch.code), (.faultOnset, byteOf FaultKind.stationAbsent.code)]
      ∧ t.flu.firstTrouble.map (·.detail) = some (.station (some 60)) := by decide +kernel

theorem test_hyp_ViewIsTaken :
    first (.view 1 0x82 4 8 1 7) peer onLine ∧ peer.sender ≠ onLine.number ∧ onLine.cfl.digest = some 7
      ∧ (0x82 : Byte).extractLsb' 1 2 ≠ 0
      ∧ ∃ v, (withHanded (.view 1 0x82 4 8 1 7) peer onLine).heardView 1 0x82 4 8 1 = some v ∧ v.phase = .running
          ∧ (withHanded (.view 1 0x82 4 8 1 7) peer onLine).adopts v = true := by
  unfold first FirstHanded
  exact ⟨by decide +kernel, by decide +kernel, by decide +kernel, by decide, heardFire false, by decide +kernel⟩

/-- The station running scenario 8 for the lower-ranked zone 3 at step 2, with station 2, LIVE, in the roster of step 1. -/
def disputing (settled : Bool) : State :=
  let s := running false 2
  let s := s.withAge { s.age with view := { s.age.view with origin := some 3 } }
  s.withSts { s.sts with
    viewSettled := settled
    programs := put s.sts.programs 8 { s.sts.programs[(8 : ScenarioId)] with
      steps := put (s.sts.programs[(8 : ScenarioId)]).steps 0 { roster := 0x4, timeout := 1200 } } }

/-- A VIEW of the higher-ranked zone 4 at the own epoch, at step 3, established: a dispute. -/
theorem test_hyp_ViewIsTaken_dispute : ∀ settled ∈ [false, true],
    let s := withHanded (.view 1 0x94 4 8 3 7) peer (disputing settled)
    let v : View := { heardFire false with step := 3, established := true }
    FirstHanded s (.view 1 0x94 4 8 3 7) peer [] ∧ peer.sender ≠ s.number ∧ s.cfl.digest = some 7
      ∧ (0x94 : Byte).extractLsb' 1 2 ≠ 0 ∧ s.heardView 1 0x94 4 8 3 = some v ∧ s.adopts v = true ∧ v.phase = .running
      ∧ s.age.void = false ∧ s.age.view.epoch = 1 ∧ s.age.view.phase ≠ .idle ∧ s.age.view.origin = some 3
      ∧ v.origin ≠ some 3 ∧ has ((s.sts.programs[v.scenario]).steps[rowOf 1]).roster (2 : StationId).val = true
      ∧ (s.presence 2).state = .live := by
  unfold FirstHanded; decide +kernel

/-- R53, step 6: the step state begins again at step 1, though the scenario is the same and the view was heard at step 3. -/
theorem test_dispute_begins_at_step_1 :
    let t := after (.view peer .presenceFirst 1 0x94 4 8 3 7) (withHanded (.view 1 0x94 4 8 3 7) peer (disputing true))
    t.age.view = heardFire false ∧ t.age.subsequent = [3] ∧ t.sts.step = 1 ∧ t.sts.established = false
      ∧ t.row 1 = StepRow.empty ∧ t.row 2 = StepRow.empty := by decide +kernel

/-- RUNNING views adopted at a new epoch, where no walk test runs and VIEW-DISPUTE is a NOTE. -/
theorem test_hyp_ViewIsTaken_newList :
    onLine.age.view.phase ≠ .running ∧ onLine.age.view.epoch ≠ 1 ∧ onLine.liu.session = none
      ∧ onLine.severity .viewDispute = .note := by decide +kernel

/-- RUNNING views adopted: escalated, one epoch ahead, with the own origin and with another. -/
theorem test_hyp_ViewIsTaken_escalatedList :
    let v : View := { heardFire true with epoch := 2 }
    (∀ s ∈ [running false, disputing true],
      first (.view 2 0xA2 4 8 1 7) peer s ∧ s.heardView 2 0xA2 4 8 1 = some v ∧ s.adopts v = true ∧ v.phase = .running
        ∧ (0xA2 : Byte).extractLsb' 1 2 ≠ 0 ∧ s.age.view.phase = .running ∧ s.age.view.escalated = false
        ∧ v.escalated = true ∧ s.age.view.epoch + 1 = 2)
      ∧ (running false).age.view.origin = v.origin ∧ (disputing true).age.view.origin = some 3 ∧ v.origin = some 4 := by
  unfold first FirstHanded; decide +kernel

/-- RUNNING views adopted at the own epoch in GATHERING, with the leading candidate and with another. -/
theorem test_hyp_ViewIsTaken_gatheringList :
    ∀ x ∈ [((3 : ZoneId), (7 : ScenarioId)), (4, 8)],
      let s := (withFire .gathering onLine).withAge { (withFire .gathering onLine).age with candidates := [5, 3, 4] }
      let v : View := { heardFire false with epoch := 10, origin := some x.1, scenario := x.2 }
      first (.view 10 0x82 (byteOf x.1.val) (byteOf x.2.val) 1 7) peer s
        ∧ s.heardView 10 0x82 (byteOf x.1.val) (byteOf x.2.val) 1 = some v ∧ s.adopts v = true ∧ s.age.void = false
        ∧ s.age.view.epoch = 10 ∧ s.age.view.phase = .gathering ∧ s.age.view.origin = some 3 ∧ v.origin = some x.1 := by
  unfold first FirstHanded; decide +kernel

/-- R51, R53: the zones in alarm by decreasing rank at a new epoch, and the former candidates and then the alarms after a displaced
leading candidate. -/
theorem test_adoption_fills_subsequent_zones :
    let s := (onLine.setZone 3 alarmEntry).setZone 5 { alarmEntry with cfg := some { home := 9, rank := 7, scenario := 7 } }
    let heard (epoch : Epoch) (s : State) : State :=
      after (.view peer .presenceFirst epoch 0x82 4 8 1 7) (withHanded (.view epoch 0x82 4 8 1 7) peer s)
    let g := (withFire .gathering s).withAge { (withFire .gathering s).age with candidates := [6, 3, 4], subsequent := [4, 7] }
    (heard 1 s).age.subsequent = [5, 3] ∧ (heard 10 g).age.subsequent = [3, 7, 6, 5]
      ∧ has (heard 10 g).flu.noteSeen FaultKind.viewDispute.code = true := by decide +kernel

/-- A GATHERING view adopted at a new epoch, and one at the own epoch. -/
theorem test_hyp_ViewIsTaken_gathering :
    (first (.view 1 0x42 4 0 0 7) peer onLine ∧ (0x42 : Byte).extractLsb' 1 2 ≠ 0)
      ∧ (let s := withHanded (.view 11 0x44 4 0 0 7) peer (withFire .gathering onLine)
         s.heardView 11 0x44 4 0 0 = some (gatheringView 11 4) ∧ s.adopts (gatheringView 11 4) = true
          ∧ (0x44 : Byte).extractLsb' 1 2 ≠ 0 ∧ s.age.view.epoch ≠ 11)
      ∧ (let s := (withFire .gathering onLine).withAge { (withFire .gathering onLine).age with candidates := [3] }
         s.heardView 10 0x44 4 0 0 = some (gatheringView 10 4) ∧ s.adopts (gatheringView 10 4) = true
          ∧ s.age.void = false ∧ s.age.view.epoch = 10 ∧ s.age.candidates.length < 8) := by
  unfold first FirstHanded; decide +kernel

/-- A VIEW of another digest, of a station in JOINING, and one that carries no view. -/
theorem test_hyp_ViewIsTaken_discarded :
    first (.view 1 0x82 4 8 1 9) peer onLine ∧ peer.sender ≠ onLine.number ∧ onLine.cfl.digest ≠ some 9
      ∧ (0x80 : Byte).extractLsb' 1 2 = 0 ∧ onLine.heardView 1 0xC2 4 8 1 = none := by
  unfold first FirstHanded; decide +kernel

/-- A full candidate list, its lowest-ranked zone 5, and a GATHERING view of zone 4 at the own epoch. -/
theorem test_hyp_ViewIsTaken_full :
    let fill (s : State) (z : ZoneId) : State :=
      s.setZone z { alarmEntry with cfg := some { home := 9, rank := z.val - 4, scenario := 7 } }
    let s := [5, 6, 7, 8, 9, 10, 11].foldl fill (withFire .gathering onLine)
    let s := s.withAge { s.age with candidates := [3, 5, 6, 7, 8, 9, 10, 11] }
    s.heardView 10 0x44 4 0 0 = some (gatheringView 10 4) ∧ s.adopts (gatheringView 10 4) = true ∧ s.age.void = false
      ∧ s.age.view.epoch = 10 ∧ s.age.candidates.length = 8 ∧ (5 : ZoneId) ∈ s.age.candidates
      ∧ (∀ y ∈ s.age.candidates, y ≠ 5 → s.rank 5 < s.rank y) ∧ s.age.view.origin ≠ some 5
      ∧ (5 : ZoneId) ∉ s.age.subsequent ∧ (s.age.subsequent.filter fun y => y != 4).length < 8 := by decide +kernel

theorem test_hyp_ViewIsTaken_idle_and_catchUp :
    (let s := withFire .gathering onLine
     s.heardView 10 0x04 255 0 0 = some (idleView 10) ∧ s.adopts (idleView 10) = true)
      ∧ (let s := (withFire .running (station .island)).setZone 3 alarmEntry
         s.adopts (idleView 10) = true ∧ s.homeAlarms.head? = some 3)
      ∧ (let s := running false
         s.heardView 1 0x84 4 8 2 = some { heardFire false with step := 2 }
          ∧ s.adopts { heardFire false with step := 2 } = false
          ∧ s.equalRank { heardFire false with step := 2 } s.age.view = true ∧ s.age.view.phase = .running
          ∧ s.age.view.step < 2 ∧ s.sts.phase = .running ∧ s.sts.epoch = 1 ∧ s.sts.scenario = 8 ∧ 1 ≤ s.sts.step.val
          ∧ s.sts.step < 2)
      ∧ (let s := running false 3
         let v : View := { heardFire false with step := 3, established := true }
         s.equalRank v s.age.view = true ∧ v.step = s.age.view.step
          ∧ v.step.val = (s.sts.programs[v.scenario]).stepCount ∧ s.age.view.established = false) := by decide +kernel

theorem test_hyp_StepDoneIsRecorded :
    let s := onLine.withSts { onLine.sts with phase := .running, epoch := 10, scenario := 8, step := 1 }
    (first (.stepDone 10 8 1 1) peer s ∧ s.sts.phase = .running ∧ (8 : Byte).toNat = s.sts.scenario.val
      ∧ 1 ≤ (1 : Byte).toNat ∧ (1 : Byte).toNat ≤ (s.sts.programs[s.sts.scenario]).stepCount)
      ∧ (first (.stepDone 10 8 2 1) peer s ∧ ¬(2 : Byte).toNat ≤ (s.sts.programs[s.sts.scenario]).stepCount)
      ∧ first (.stepDone 9 8 1 1) peer s ∧ first (.stepDone 10 8 0 1) peer s := by
  unfold first FirstHanded; decide +kernel

theorem test_hyp_SenderIsNoted :
    (first .syncRequest peer onLine ∧ peer.sender ≠ onLine.number ∧ Matches onLine 2)
      ∧ (let s := onLine.setPresence 2 { onLine.presence 2 with state := .live, digest := some 7 }
         first .syncRequest peer s ∧ s.prm.mode = .onLine ∧ (s.presence 2).state = .live ∧ Matches s 2
          ∧ s.bsc.queue.length < 8)
      ∧ (let s := station .island
         first .syncRequest peer s ∧ s.prm.mode = .island ∧ (s.presence 2).state ≠ .live ∧ s.bsc.queue.length ≤ 3)
      ∧ (let s := (station .joiningAfterReset).setPresence 2 { onLine.presence 2 with state := .live, digest := some 7 }
         first .syncRequest peer s ∧ s.prm.mode.joining = true ∧ (s.presence 2).state = .live ∧ Matches s 2)
      ∧ ¬Matches (onLine.setPresence 2 { onLine.presence 2 with digest := some 8 }) 2
      ∧ first .syncRequest own onLine ∧ own.sender = onLine.number
      ∧ first (.faultNotice 1 2 3) peer onLine ∧ first (.faultNotice 1 2 3) own onLine := by
  unfold first FirstHanded Matches; decide +kernel

/-- A peer that the noting brings out of ABSENT, out of MISMATCHED, and into MISMATCHED. -/
theorem test_hyp_SenderIsNoted_faults :
    (∀ x ∈ [Presence.absent, .mismatched], Matches (withPeer x none onLine) 2 ∧ ((withPeer x none onLine).presence 2).state = x
      ∧ first .syncRequest peer (withPeer x none onLine) ∧ first (.faultNotice 1 2 3) peer (withPeer x none onLine))
      ∧ ¬Matches (withPeer .absent (some 8) onLine) 2
      ∧ (∀ late ∈ [[], [FaultKind.configMismatch.named 2]],
          (withLate late onLine).flu.isLate .configMismatch 2 = !late.isEmpty) := by
  unfold first FirstHanded Matches; decide +kernel

theorem test_hyp_ClaimWindowCommits :
    let s := (withFire .gathering onLine).withAge { (withFire .gathering onLine).age with
      candidates := [3, 4], window := some 0 }
    s.isActive = true ∧ s.age.window = some 0 ∧ (4 : ZoneId) ∈ s.age.candidates
      ∧ ∀ y ∈ s.age.candidates, y ≠ 4 → s.rank y < s.rank 4 := by decide +kernel

theorem test_hyp_AgeExpiryMarksAbsent :
    let s := onLine.setPresence 2 { onLine.presence 2 with state := .live, age := some 0 }
    (2 : StationId) ≠ s.number ∧ s.isActive = true ∧ (s.presence 2).age = some 0 ∧ (s.presence 2).state = .live
      ∧ (s.zone 4).cfg = some { home := 2, rank := 8, scenario := 8 } ∧ (s.zone 4).copy = .current
      ∧ (s.group 1).owner = some 2 := by decide +kernel

theorem test_hyp_AgeExpiryMarksAbsent_faults :
    ∀ x ∈ [Presence.absent, .mismatched, .live], let s := withPeer x none onLine
      (2 : StationId) ≠ s.number ∧ s.isActive = true ∧ (s.presence 2).age = some 0 ∧ (s.presence 2).state = x
        ∧ has s.prm.configured 2 = true ∧ s.severity .stationAbsent ≠ .masked ∧ s.severity .configMismatch ≠ .masked := by
  decide +kernel

/-- The station joining, its wait over, with a solo timer and a set of configured stations. -/
def joining (solo : Timer) (configured : StationSet) : State :=
  (station .joiningAfterReset).withPrm { (station .joiningAfterReset).prm with
    joinWait := some 0, solo := solo, configured := configured }

theorem test_hyp_ModeTimersExpire :
    ((joining none 0x204).prm.mode.joining = true ∧ (joining none 0x204).prm.joinWait = some 0
        ∧ (joining none 0x204).prm.solo = none
        ∧ ∃ n : StationId, n ≠ (joining none 0x204).number ∧ has (joining none 0x204).prm.configured n.val = true)
      ∧ ((joining (some 9) 0x204).bsc.linkStuck = false ∧ (joining (some 9) 0x204).prm.solo ≠ none)
      ∧ (∀ n : StationId, n ≠ (joining none 0x200).number → has (joining none 0x200).prm.configured n.val = false)
      ∧ ((joining none 0x204).withBsc { (joining none 0x204).bsc with linkStuck := true }).bsc.linkStuck = true
      ∧ (let s := onLine.withPrm { onLine.prm with solo := some 0 }
         s.isActive = true ∧ s.prm.solo = some 0 ∧ s.prm.mode = .onLine
          ∧ (∀ late ∈ [[], [FaultKind.island.named 255]], (withLate late s).flu.isLate .island 255 = !late.isEmpty)
          ∧ s.severity .island ≠ .masked
          ∧ ∃ n : StationId, n ≠ s.number ∧ has s.prm.configured n.val = true)
      ∧ ((station .island).isActive = true ∧ (station .island).prm.mode ≠ .onLine) := by decide +kernel

theorem test_hyp_ViewPeriodRotates :
    let s := onLine.withPrm { onLine.prm with viewPeriod := some 0 }
    let t := s.setZone 3 alarmEntry
    s.isActive = true ∧ s.prm.viewPeriod = some 0 ∧ rotate s.ztu.rotation s.isHome = some 3
      ∧ rotate s.ovu.rotation s.ownsGroup = some 0 ∧ s.bsc.queue.length ≤ 4
      ∧ (t.prm.mode = .onLine ∧ t.age.view.phase = .idle ∧ t.homeAlarms.head? = some 3)
      ∧ (let g := withFire .gathering t
         g.prm.mode = .onLine ∧ g.age.view.phase = .gathering ∧ (g.zone 3).copy = .home ∧ (g.zone 3).condition = .alarm
          ∧ (3 : ZoneId) ∉ g.age.candidates ∧ (3 : ZoneId) ∉ g.age.subsequent
          ∧ ∀ y : ZoneId, (g.zone y).copy = .home → (g.zone y).condition = .alarm → y = 3)
      ∧ (withFire .running t).age.view.phase = .running ∧ s.homeAlarms = []
      ∧ (∀ z : ZoneId, ¬((s.zone z).copy = .home ∧ (s.zone z).condition = .alarm)) ∧ (station .island).prm.mode ≠ .onLine
      ∧ (∀ z : ZoneId, (State.reset.zone z).copy ≠ .home)
      ∧ ∀ g : GroupId, (State.reset.group g).owner ≠ some State.reset.number := by decide +kernel

/-- The station at step 1 of scenario 8 with both step timers expired. -/
def stepping (settled : Bool) (count : Nat) : State :=
  onLine.withSts { onLine.sts with
    programs := put onLine.sts.programs 8 { onLine.sts.programs[(8 : ScenarioId)] with stepCount := count }
    phase := .running, epoch := 10, scenario := 8, step := 1, stepTimer := some 0, repeatTimer := some 0, expected := 0x204
    viewSettled := settled }

theorem test_hyp_StepTimersExpire :
    ((stepping false 1).isActive = true ∧ (stepping false 1).sts.stepTimer = some 0 ∧ (stepping false 1).sts.viewSettled = false)
      ∧ ((stepping true 2).sts.viewSettled = true
          ∧ (stepping true 2).sts.step.val < ((stepping true 2).sts.programs[(stepping true 2).sts.scenario]).stepCount)
      ∧ ((stepping true 1).sts.viewSettled = true
          ∧ ((stepping true 1).sts.programs[(stepping true 1).sts.scenario]).stepCount ≤ (stepping true 1).sts.step.val)
      ∧ ((stepping true 1).severity .stepForced = .trouble ∧ (stepping true 1).flu.firstTrouble = none
          ∧ (stepping true 1).flu.firstCritical = none)
      ∧ (let s := (stepping true 1).withFlu { (stepping true 1).flu with
           severities := put (stepping true 1).flu.severities FaultKind.stepForced.index .critical }
         s.severity .stepForced = .critical)
      ∧ ((stepping true 1).sts.repeatTimer = some 0 ∧ (stepping true 1).sts.step ≠ 0
          ∧ ((stepping true 1).row (stepping true 1).sts.step).completion = .opened)
      ∧ ((stepping false 1).sts.repeatTimer = some 0 ∧ ((stepping false 1).row (stepping false 1).sts.step).completion = .opened)
      ∧ (onLine.withSts { onLine.sts with repeatTimer := some 0 }).sts.step = 0 := by decide +kernel

/-- The station with the last report of every point as the point stands. -/
def reported (s : State) : State :=
  s.withSts { s.sts with reports := Vector.ofFn fun p => (s.point p).report, waiting := [] }

/-- A roster of this station and an expected set of one station, with those heard. -/
def atBarrier (count : Nat) (heard : StationSet) : State :=
  let s := stepping true count
  s.withSts { s.sts with
    expected := 0x200
    programs := put s.sts.programs 8 { s.sts.programs[(8 : ScenarioId)] with
      steps := put (s.sts.programs[(8 : ScenarioId)]).steps 0 { roster := 0x200, timeout := 1200 } }
    rows := put s.sts.rows 0 { StepRow.empty with heard := heard } }

theorem test_hyp_StepsStartAndComplete :
    ((1 : StepId) ≠ 0 ∧ (stepping true 2).age.view.phase ≠ .running)
      ∧ (let s := running false
         s.age.view.phase = .running ∧ s.age.view.epoch = s.sts.epoch ∧ s.age.view.scenario = s.sts.scenario)
      ∧ (stepping false 2).sts.viewSettled = false
      ∧ ((atBarrier 2 0).sts.viewSettled = true ∧ (atBarrier 2 0).sts.phase = .running
          ∧ ((atBarrier 2 0).row 1).completion = .opened
          ∧ ∀ n : StationId, has ((atBarrier 2 0).beginStep 1).sts.expected n.val = true →
              has ((atBarrier 2 0).row 1).heard n.val = true)
      ∧ (∀ count ∈ [1, 2], let s := atBarrier count 0x200
         s.sts.viewSettled = true ∧ s.sts.phase = .running ∧ s.sts.step ≠ 0 ∧ (s.row s.sts.step).completion = .opened
          ∧ (∀ n : StationId, has s.sts.expected n.val = true → has (s.row s.sts.step).heard n.val = true)
          ∧ (s.sts.programs[s.sts.scenario]).stepCount = count ∧ s.sts.step.val = 1)
      ∧ (∃ n : StationId, has (atBarrier 2 0).sts.expected n.val = true
          ∧ has ((atBarrier 2 0).row (atBarrier 2 0).sts.step).heard n.val = false) := by
  refine ⟨by decide +kernel, by decide +kernel, by decide +kernel, by decide +kernel, by decide +kernel, 9, by decide +kernel⟩

/-- The station at a step with damper 3 of the step, in a state. -/
def settling (state : DamperState) : State :=
  let s := atBarrier 2 0
  let s := s.setPoint 3 (.damper (damper .toOpen state .broken .broken))
  reported (s.withSts { s.sts with
    demands := put s.sts.demands 3 { demand := .toOpen, source := .scenario }
    points := put s.sts.points 3 { s.sts.points[(3 : PointId)] with
      scenarios := put (s.sts.points[(3 : PointId)]).scenarios 8 { action := .give .toOpen, step := 1 } } })

theorem test_hyp_StepsStartAndComplete_settlement :
    (∀ x ∈ [DamperState.isOpen, .jammed],
      (settling x).ownSettles = true ∧ (settling x).isActive = true ∧ (settling x).bsc.queue.length < 8
        ∧ (settling x).pointsOf 1 = [3] ∧ (settling x).sts.reports[(3 : PointId)]
            = some { state := .damper x, attemptsRemain := false })
      ∧ (settling .opening).ownSettles = false := by decide +kernel

/-- The station in IDLE after a fire, with damper 3 and fan 6 in a state under a demand that its normal action ends. -/
def standingDown (f : Fan) : State :=
  let s := (withFan f).setPoint 3 (.damper (damper .toOpen .isOpen .made .broken))
  reported (s.withSts { s.sts with
    phase := .running, viewSettled := true
    demands := put (put s.sts.demands 3 { demand := .toOpen, source := .scenario }) 6
      { demand := f.demand, source := .scenario }
    points := put (put s.sts.points 3 { s.sts.points[(3 : PointId)] with normal := .give .toShut }) 6
      { s.sts.points[(6 : PointId)] with normal := .give .stop } })

theorem test_hyp_StandDownOrder :
    (∀ f ∈ [fan .run .running, fan .stop .stopping],
      let s := standingDown f
      s.isActive = true ∧ s.sts.viewSettled = true ∧ s.age.view.phase = .idle ∧ s.sts.phase ≠ .idle ∧ s.point 6 = .fan f
        ∧ ((f.state = .running ∧ f.demand = .run ∧ (s.sts.demands[(6 : PointId)]).demand = .run) ∨ f.state = .stopping)
        ∧ (s.sts.points[(6 : PointId)]).group = none ∧ (s.sts.points[(6 : PointId)]).normal = .give .stop
        ∧ s.sts.waiting = [] ∧ ∀ p : PointId, s.sts.reports[p] = (s.point p).report)
      ∧ (onLine.sts.standDownPending = false ∧ onLine.sts.phase = .idle ∧ onLine.age.view.phase = .idle
          ∧ ∀ p : PointId, (onLine.point p).isFan = false)
      ∧ (withFire .running onLine).age.view.phase ≠ .idle
      ∧ (let s := standingDown (fan .run .running)
         (s.withSts { s.sts with standDownPending := true }).stoodDown = false ∧ onLine.stoodDown = true)
      ∧ ({ state := .fan .stopped, attemptsRemain := true : PointReport }).state = .fan .stopped
      ∧ ({ state := .damper .isOpen, attemptsRemain := false : PointReport }).state = .damper .isOpen := by decide +kernel

/-- The station under a stand-down order at epoch 0, with a RUNNING view at step 2 of scenario 8 in which damper 3 has no
action. -/
def taken (phase : Phase) (established : Bool := false) : State :=
  let s := standingDown (fan .run .running)
  let s := s.withSts { s.sts with
    phase := .idle, standDownPending := true
    programs := put s.sts.programs 8 { s.sts.programs[(8 : ScenarioId)] with stepCount := 2 }
    points := put s.sts.points 3 { s.sts.points[(3 : PointId)] with
      pre := .leave, scenarios := put (s.sts.points[(3 : PointId)]).scenarios 8 { action := .leave, step := 1 } } }
  s.withAge { s.age with view := { heardFire false with phase := phase, step := 2, established := established } }

theorem test_hyp_StepsStartAndComplete_view :
    (taken .running).age.view.epoch ≠ (taken .running).sts.epoch ∧ (taken .running).age.view.established = false
      ∧ (taken .running true).age.view.established = true ∧ (taken .gathering).age.view.phase ≠ .running := by decide +kernel

/-- R96: step 2 starts with row 1 caught up and the stand-down order still pending; acting on the phase then releases the
damper it holds to its normal demand. -/
theorem test_step_starts_before_stand_down_order_clears :
    let u := (taken .running).enterProgram (taken .running).age.view
    let t := (taken .running).takeView false
    u.sts.step = 2 ∧ (u.row 1).completion = .caughtUp ∧ u.sts.standDownPending = true
      ∧ u.sts.demands[(3 : PointId)] = { demand := .toOpen, source := .standDownHold }
      ∧ t.sts.standDownPending = false ∧ t.sts.demands[(3 : PointId)] = { demand := .toShut, source := .normal } := by
  decide +kernel

/-- A limit input of damper 3 whose settle interval has run out. -/
def limitDue (d : Damper) (i : LimitInput) : Bool :=
  (withDamper d).isActive && (withDamper d).point 3 == .damper d && d.settleOf i == some 0

theorem test_hyp_DamperTakesLimitsAndExpiry :
    limitDue (damper .toOpen .opening .broken .made) .inputA ∧ limitDue (damper .toOpen .opening .broken .broken) .inputA
      ∧ limitDue (damper .toShut .shutting .broken .broken) .inputB ∧ limitDue (damper .toOpen .jammed .broken .broken) .inputA
      ∧ limitDue (damper .toOpen .isOpen .made .broken) .inputA ∧ limitDue (damper .toShut .isShut .broken .made) .inputB
      ∧ limitDue (damper .toOpen .opening .broken .made) .inputB
      ∧ limitDue (damper .toOpen .limitConflict .made .made) .inputB
      ∧ limitDue (damper .toOpen .limitConflict .made .made) .inputA
      ∧ limitDue (damper .rest .mid .broken .broken) .inputA ∧ limitDue (damper .rest .mid .broken .broken) .inputB
      ∧ limitDue (damper .rest .isOpen .made .broken) .inputA ∧ limitDue (damper .rest .isOpen .made .broken) .inputB
      ∧ ((damper .toOpen .opening .broken .made).travel = some 0 ∧ (damper .toOpen .isOpen .made .broken).travel = some 0) := by
  decide +kernel

/-- Damper 3 due to leave or enter OPEN, with fan 6 interlocked with it in a state. -/
def interlocked (d : Damper) (state : FanState) (unmet : PointSet) : State :=
  (withDamper d).setPoint 6 (.fan { fan .run state with interlock := 8, unmet := unmet })

theorem test_hyp_DamperTakesLimitsAndExpiry_fans :
    let open_ := damper .toOpen .isOpen .made .broken
    let opening := damper .toOpen .opening .broken .broken
    (∀ x ∈ [FanState.starting, .running, .stopping],
      (interlocked open_ x 0).point 3 = .damper open_ ∧ open_.settleOf .inputA = some 0
        ∧ (interlocked open_ x 0).point 6 = .fan { fan .run x with interlock := 8, unmet := 0 } ∧ has (8 : PointSet) 3 = true)
      ∧ ((interlocked opening .queued 8).point 3 = .damper opening ∧ opening.settleOf .inputA = some 0
          ∧ (interlocked opening .queued 8).point 6 = .fan { fan .run .queued with interlock := 8, unmet := 8 }
          ∧ remove (8 : PointSet) 3 = 0)
      ∧ isOpenDamper ((after (.limitEvent 3 .inputA) (interlocked open_ .starting 0)).point 3) = false
      ∧ isOpenDamper ((after (.limitEvent 3 .inputA) (interlocked opening .queued 8)).point 3) = true := by decide +kernel

theorem test_interlock_break_stops_fan :
    (after (.limitEvent 3 .inputA) (interlocked (damper .toOpen .isOpen .made .broken) .running 0)).point 6
      = .fan { fan .run .stopping with interlock := 8, unmet := 8, prove := none, flow := none, run := some 3000 } := by
  decide +kernel

theorem test_hyp_PointTakesDemand :
    (∀ d ∈ [damper .rest .mid .broken .broken, damper .toShut .isShut .broken .made, damper .rest .isOpen .made .broken,
        damper .rest .limitConflict .made .made],
      (withDamper d).point 3 = .damper d ∧ Demand.toOpen ≠ d.demand)
      ∧ (∀ d ∈ [damper .toOpen .isOpen .made .broken, damper .toShut .isShut .broken .made, damper .toOpen .opening .broken .broken,
          damper .toOpen .limitConflict .made .made], (withDamper d).point 3 = .damper d ∧ Demand.rest ≠ d.demand)
      ∧ (∀ f ∈ [fan .stop .stopped, fan .stop .stopping, fan .rest .tripped, fan .run .queued, fan .run .starting,
          fan .run .running, fan .run .noFlow, fan .run .stopping, fan .run .tripped], (withFan f).point 6 = .fan f)
      ∧ onLine.point 0 = .unused (UnusedPoint.reset .broken .broken)
      ∧ (∀ p : PointId, (onLine.demandOf p).demand = (onLine.sts.demands[p]).demand)
      ∧ (let s := (withDamper (damper .rest .mid .broken .broken)).withSts { onLine.sts with
           points := put onLine.sts.points 3 { onLine.sts.points[(3 : PointId)] with normal := .give .toOpen }, viewSettled := true }
         (s.demandOf 3).demand ≠ (s.sts.demands[(3 : PointId)]).demand
          ∧ ∀ q : PointId, q ≠ 3 → (s.demandOf q).demand = (s.sts.demands[q]).demand) := by decide +kernel

theorem test_hyp_FanTripsAndClears :
    (∀ x ∈ [FanState.stopped, .queued, .starting, .running, .stopping, .noFlow, .tripped],
      (withFan (fan .run x)).isActive = true ∧ (withFan (fan .run x)).point 6 = .fan (fan .run x)
        ∧ (fan .run x).settleB = some 0 ∧ tripActive false (otherLevel (fan .run x).inputB) = true)
      ∧ (withFan (fan .run .tripped .broken)).point 6 = .fan (fan .run .tripped .broken)
      ∧ tripActive false (otherLevel (fan .run .tripped .broken).inputB) = false := by decide +kernel

theorem test_hyp_FanTimersExpire :
    (∀ f ∈ [fan .run .starting, fan .run .running, fan .stop .stopping, fan .rest .stopping, fan .run .stopping,
        fan .run .noFlow .made 1, fan .run .noFlow .made 0, fan .stop .stopped],
      (withFan f).isActive = true ∧ (withFan f).point 6 = .fan f ∧ f.prove = some 0 ∧ f.flow = some 0 ∧ f.run = some 0
        ∧ f.uncommandedTimer = some 0) := by decide +kernel

/-- A grant behind a late onset: the fan granted ends its uncommanded flow, and the clear waits. -/
theorem test_hyp_StartGapGrants_behind :
    let s := withFan { fan .run .queued with uncommanded := true }
    let s := s.withPtc { s.ptc with startQueue := [6] }
    let s := s.withFlu { s.flu with waiting := [] ++ [[.onset .fanTrip 7 .none false]] }
    s.ptc.grantee = some 6
      ∧ (s.grantTest true).flu.waiting = [[.onset .fanTrip 7 .none false, .clear .fanUncommanded 6]] := by decide +kernel

theorem test_hyp_StartGapGrants :
    let queued := (withFan (fan .run .queued)).withPtc { (withFan (fan .run .queued)).ptc with
      startQueue := [6], gap := some 0 }
    let busy := queued.setPoint 7 (.fan (fan .run .starting))
    (queued.isActive = true ∧ queued.ptc.gap = some 0 ∧ queued.ptc.startQueue = [] ++ 6 :: []
      ∧ queued.point 6 = .fan (fan .run .queued) ∧ (fan .run .queued).unmet = 0
      ∧ (∀ q : PointId, (queued.point q).isStarting = false))
      ∧ (busy.ptc.gap = some 0 ∧ (busy.point 7).isStarting = true ∧ busy.sts.waiting = []) := by decide +kernel

/-- The station with fan 6 in a state and a measurement record. -/
def measuring (state : FanState) (m : Pmu) : State := (withFan (fan .run state)).setMeasure 6 m

theorem test_hyp_FlowProofIsMeasured :
    let m : Pmu := { Pmu.reset with count := 1 }
    let period : Pmu := { m with start := some 9000, lastFall := some 9200, lastHigh := some 200 }
    let slow : Pmu := { period with proven := true, lastFall := some 9999, lastHigh := some 999 }
    ((measuring .starting m).isActive = true ∧ (measuring .starting m).point 6 = .fan (fan .run .starting)
      ∧ ((measuring .starting m).measure 6).start = none)
      ∧ ((measuring .starting { m with level := .made }).measure 6).level = .made
      ∧ (∀ x ∈ [period, slow], Level.made ≠ x.level ∧ 1000 ≤ 1000 ∧ x.lastRise = none
          ∧ ∀ f, x.lastFall = some f → f < 10 * onLine.cfl.ticks + max onLine.cfl.millis 0)
      ∧ (measuring .starting m).sts.waiting = []
      ∧ (let x := (measuring .starting { period with lastFall := some 9900 }).measure 6
         x.start = some 9000 ∧ x.lastFall = some 9900 ∧ x.lastHigh = some 200 ∧ x.periods.length ≤ x.count
          ∧ (200 + (10 * onLine.cfl.ticks - 9900)) / 1 ≤ x.threshold ∧ x.proven = false)
      ∧ (let x := (measuring .running slow).measure 6
         x.proven = true ∧ x.threshold < (999 + (10 * onLine.cfl.ticks - 9999)) / 1)
      ∧ (∀ x ∈ [FanState.starting, .running, .stopped, .stopping], (measuring x m).point 6 = .fan (fan .run x)) := by
  decide +kernel

/-- An edge that gains proof and one that loses it move a fan in each state that the statement names. -/
theorem test_pulseEdge_moves_fan :
    let gain : Pmu := { Pmu.reset with count := 1, threshold := 300, start := some 9000, lastFall := some 9900, lastHigh := some 200 }
    let lose : Pmu := { gain with proven := true, threshold := 250 }
    (∀ x ∈ [(FanState.starting, fan .run .running), (.running, fan .run .running), (.stopped, fan .run .stopped)],
      (after (.pulseEdge 6 .made 0 1000) (measuring x.1 gain)).point 6 = .fan { x.2 with
        prove := if x.1 = .starting then none else x.2.prove
        flow := if x.1 = .stopped then x.2.flow else none
        uncommandedTimer := if x.1 = .stopped then some 3000 else x.2.uncommandedTimer })
      ∧ (∀ x ∈ [FanState.running, .stopped, .tripped],
        (after (.pulseEdge 6 .made 0 1000) (measuring x lose)).point 6 = .fan { fan .run x with
          flow := if x = .running then some 500 else (fan .run x).flow
          uncommandedTimer := if x = .stopped then none else (fan .run x).uncommandedTimer }) := by decide +kernel

theorem test_hyp_FlowProofIsMeasured_expiry :
    (∀ x ∈ [(FanState.running, true), (.stopped, true), (.starting, true), (.running, false)],
      let s := measuring x.1 { Pmu.reset with proven := x.2, noEdge := some 9 }
      s.isActive = true ∧ s.point 6 = .fan (fan .run x.1) ∧ (s.measure 6).noEdge = some 9 ∧ (s.measure 6).proven = x.2)
      ∧ 9 < 10 := by decide +kernel

theorem test_hyp_PointEventsFrame : isPointEvent .startGapExpiry = true ∧ ∃ t, exec .startGapExpiry onLine = .next t :=
  ⟨rfl, _, rfl⟩

theorem test_hyp_SetupFrame : isStart .clearLog = false ∧ ∃ t, exec .clearLog onLine = .next t := ⟨rfl, _, rfl⟩

theorem test_hyp_AttemptsBeginAndEnd :
    ((withQueue [entry .syncRequest] none onLine).bsc.queue = [entry .syncRequest] ∧ onLine.bsc.linkStuck = false)
      ∧ onLine.bsc.queue = []
      ∧ (contentionField (Bulletin.claim 1 3).cls 9).getMsbD (3 : Fin 7).val = true := by decide +kernel

/-- The line after a frame, within one, and quiet for 10 bit times, with and without a bulletin queued. -/
theorem test_hyp_AttemptsBeginAndEnd_line :
    (∀ w ∈ [LineWatch.outside 0, .outside 10], let s := withQueue [entry .syncRequest] none onLine
      (s.withBsc { s.bsc with watch := w }).bsc.watch ≠ .frame)
      ∧ (onLine.withBsc { onLine.bsc with watch := .frame }).bsc.watch = .frame
      ∧ onLine.bsc.attempt = none ∧ 10 ≤ 10 ∧ ¬10 ≤ 9 := by decide +kernel

/-- A peer's frame on a stuck line starts the recovery timer again at its last dominant bit, and so does a dominant bit that the
watch for an idle line tells of; a count that grows lets the timer run on (R173). -/
theorem test_recovery_starts_again :
    let stuck := onLine.withBsc { onLine.bsc with linkStuck := true, recovery := some 100, watch := .outside 10 }
    (after (.frameComplete goodFrame) stuck).bsc.recovery = some (1250 - (lastRun (frameBits goodFrame)).2)
      ∧ (lastRun (frameBits goodFrame)).2 = 7
      ∧ (after (.frameError { goodFrame with endField := 0 } false) stuck).bsc.recovery = none
      ∧ (after (.frameError { goodFrame with kind := 15, length := 7 } false) stuck).bsc.recovery = some 1247
      ∧ (after (.transmitAttempt 4) stuck).bsc.recovery = some 1246 ∧ (after (.transmitAttempt 12) stuck).bsc.recovery = some 100
      ∧ (after (.transmitAttempt 0) stuck).bsc.recovery = none := by decide +kernel

/-- No attempt begins before 10 quiet bit times, nor while the frame that won the contention is on the line (R159, R166). -/
theorem test_transmitAttempt_waits_for_idle_line :
    let s := withQueue [entry (.claim 1 3)] none onLine
    let yielded := after (.contentionYield 3) (withQueue [entry (.claim 1 3) 2 true] (some { sent := .claim 1 3, replaced := false })
      (onLine.withBsc { onLine.bsc with watch := .frame }))
    (after (.transmitAttempt 9) s).bsc.attempt = none ∧ (after (.transmitAttempt 10) s).bsc.attempt.isSome = true
      ∧ (after (.transmitAttempt 10) yielded).bsc.attempt = none
      ∧ (after (.transmitAttempt 10) (after (.frameComplete goodFrame) yielded)).bsc.attempt.isSome = true := by decide +kernel

theorem test_hyp_AttemptsBeginAndEnd_ends :
    (∀ n ∈ [2, 3], (withQueue ([] ++ entry (.claim 1 3) n true :: [entry .syncRequest])
        (some { sent := .claim 1 3, replaced := false }) onLine).bsc.attempt = some { sent := .claim 1 3, replaced := false }
      ∧ (entry (.claim 1 3) n true).inAttempt = true ∧ (entry (.claim 1 3) n true).attempts ≤ 3)
      ∧ (∀ x ∈ [] ++ [entry .syncRequest], x.inAttempt = false ∧ x.attempts ≤ 3)
      ∧ (∀ r ∈ [false, true], (withQueue [] (some { sent := .syncRequest, replaced := r }) onLine).bsc.attempt
          = some { sent := .syncRequest, replaced := r })
      ∧ onLine.bsc.fifo.length < 8 ∧ 8 ≤ (List.replicate 8 { bulletin := .syncRequest, src := peer : RxEntry }).length := by
  decide +kernel

theorem test_hyp_FramesAreReceived :
    (receiveFrame goodFrame = some (.standDown 5) ∧ goodFrame.sender ≠ onLine.number ∧ onLine.bsc.fifo.length < 8)
      ∧ (receiveFrame (assemble 9 (.claim 1 3)) = some (.claim 1 3) ∧ (assemble 9 (.claim 1 3)).sender = onLine.number
          ∧ (Bulletin.claim 1 3).kindCode = 1 ∧ onLine.bsc.duplicate = none ∧ onLine.flu.active.length < 32)
      ∧ (receiveFrame (assemble 9 (.standDown 5)) = some (.standDown 5) ∧ (Bulletin.standDown 5).kindCode ≠ 1
          ∧ (Bulletin.standDown 5).kindCode ≠ 4 ∧ (Bulletin.standDown 5).kindCode ≠ 5)
      ∧ (receiveFrame { goodFrame with endField := 0 } = none ∧ onLine.bsc.ownError = false ∧ onLine.bsc.linkStuck = false
          ∧ onLine.bsc.holdoff = none ∧ onLine.severity .rxLoss = .note)
      ∧ (lastRun (frameBits goodFrame)).1 = true ∧ (lastRun (frameBits { goodFrame with endField := 0 })).1 = false
      ∧ (∀ late ∈ [[], [FaultKind.duplicateStation.named (byteOf onLine.number.val)]],
          let s := withLate late onLine
          s.bsc.duplicate = none ∧ s.flu.isLate .duplicateStation (byteOf s.number.val) = !late.isEmpty)
      ∧ (let full := List.replicate 8 { bulletin := .syncRequest, src := peer : RxEntry }
         let s := onLine.withBsc { onLine.bsc with fifo := full, holdoff := some 5 }
         8 ≤ s.bsc.fifo.length ∧ s.bsc.holdoff ≠ none ∧ onLine.bsc.queue.length < 8)
      ∧ (onLine.withBsc { onLine.bsc with duplicate := some 5 }).bsc.duplicate ≠ none
      ∧ (onLine.withBsc { onLine.bsc with ownError := true }).bsc.ownError = true
      ∧ (onLine.withBsc { onLine.bsc with holdoff := some 5 }).bsc.holdoff = some 5 := by decide +kernel

theorem test_hyp_BusTimersExpire :
    ∀ due ∈ [false, true],
      let s := onLine.withBsc { onLine.bsc with holdoff := some 0, syncDue := due, duplicate := some 0 }
      s.isActive = true ∧ s.bsc.holdoff = some 0 ∧ s.bsc.syncDue = due ∧ s.bsc.duplicate = some 0
        ∧ s.bsc.queue.length < 8 := by decide +kernel

theorem test_hyp_StuckLineAndRecovery :
    (onLine.isActive = true ∧ onLine.bsc.linkStuck = false ∧ onLine.prm.mode = .onLine
      ∧ onLine.severity .linkStuck ≠ .masked ∧ onLine.flu.active.length < 32 ∧ 250 ≤ 250 ∧ 249 < 250 ∧ 1250 ≤ 1250 ∧ 1249 < 1250)
      ∧ (let s := withQueue [entry (.claim 1 3)] none (station .island)
         s.prm.mode ≠ .onLine ∧ (∀ g, s.ownsGroup g = true → (s.group g).mode = s.ovu.requested[g]) ∧ s.bsc.queue.length < 8)
      ∧ (let s := (station .island).withBsc { onLine.bsc with linkStuck := true }
         s.isActive = true ∧ s.bsc.linkStuck = true ∧ s.prm.mode = .island
          ∧ ∃ n : StationId, n ≠ s.number ∧ has s.prm.configured n.val = true)
      ∧ (let s := (joining none 0x200).withPrm { (joining none 0x200).prm with mode := .island }
         s.prm.mode = .island ∧ ∀ n : StationId, n ≠ s.number → has s.prm.configured n.val = false) := by decide +kernel

theorem test_hyp_StuckLineAndRecovery_late :
    onLine.flu.isLate .linkStuck 255 = false
      ∧ (withLate [FaultKind.linkStuck.named 255] onLine).flu.isLate .linkStuck 255 = true
      ∧ (withLate [FaultKind.island.named 255] onLine).flu.isLate .island 255 = true
      ∧ onLine.flu.isLate .island 255 = false ∧ onLine.severity .island ≠ .masked := by decide +kernel

theorem test_hyp_OverflowDisplacesLeastUrgent :
    let full : List TxEntry := List.replicate 7 (entry (.claim 1 3)) ++ entry (.faultNotice 1 2 3) :: []
    8 ≤ full.length ∧ (entry (.faultNotice 1 2 3)).inAttempt = false
      ∧ (Bulletin.zoneReport 3 1).isView = false ∧ (Bulletin.zoneReport 3 1).cls < (Bulletin.faultNotice 1 2 3).cls
      ∧ (Bulletin.faultNotice 1 2 3).cls ≤ (Bulletin.faultNotice 4 5 6).cls := by decide +kernel

/-- A VIEW in the queue, in an attempt or not, and the entries of a queue in the order of their classes. -/
theorem test_hyp_OverflowDisplacesLeastUrgent_places :
    let view := Bulletin.view 1 0 255 0 0 7
    let sorted (q : List TxEntry) : Prop := q.Pairwise fun y z => y.bulletin.cls ≤ z.bulletin.cls
    (∀ sent ∈ [false, true], view.isView = true
      ∧ (withQueue ([entry (.claim 1 3)] ++ entry view 2 sent :: [entry (.faultNotice 1 2 3)]) none onLine).bsc.queue
          = [entry (.claim 1 3)] ++ entry view 2 sent :: [entry (.faultNotice 1 2 3)]
      ∧ ∀ y ∈ [entry (.claim 1 3)] ++ [entry (.faultNotice 1 2 3)], y.bulletin.isView = false)
      ∧ sorted [entry (.claim 1 3), entry (.faultNotice 1 2 3)]
      ∧ sorted (List.replicate 7 (entry (.claim 1 3)) ++ [entry (.faultNotice 1 2 3)])
      ∧ txHoldsView [entry (.claim 1 3), entry (.faultNotice 1 2 3)] = false
      ∧ (∀ y ∈ List.replicate 8 (entry (.claim 1 3) 0 true), y.inAttempt = true)
      ∧ State.reset.isActive = false ∧ (onLine.isActive = true ∧ (onLine.bsc.accept .syncRequest onLine.cfl.ticks).2 = none)
      ∧ (let s := withQueue (List.replicate 8 (entry (.claim 1 3))) none onLine
         (s.bsc.accept (.faultNotice 9 6 0xC1) s.cfl.ticks).2 = some (.faultNotice 9 6 0xC1)) := by decide +kernel

theorem test_new_bulletin_joins_behind_its_class :
    txPlace (entry (.claim 1 4)) [entry (.claim 1 3), entry (.faultNotice 1 2 3)]
      = [entry (.claim 1 3), entry (.claim 1 4), entry (.faultNotice 1 2 3)] := by decide +kernel

/-- An active table of 32 entries. -/
def fullTable : List FaultEntry :=
  (List.finRange 32).map fun i => { kind := .lineOpen, subject := byteOf (i.val + 8), severity := .trouble, onset := 0 }

/-- Reports handed together, one of them late. -/
theorem test_hyp_FaultReports_together :
    let s := withLate [FaultKind.fanTrip.named 6] onLine
    let before : List FaultReport := [.clear .fanTrip 6, .onset .lineOpen 0 .none false, .onset .rxLoss 255 .none true]
    (∀ r ∈ before, r.isLate s.flu.late = false)
      ∧ (FaultReport.onset .fanTrip 6 .none false).isLate s.flu.late = true := by decide +kernel

/-- An onset that is late and one that is not. -/
theorem test_hyp_FaultReports_late :
    ({ code := byteOf FaultKind.fanTrip.code, subject := 6 } : FaultName) ∈ (withLate [FaultKind.fanTrip.named 6] onLine).flu.late
      ∧ ({ code := byteOf FaultKind.fanTrip.code, subject := 6 } : FaultName) ∉ onLine.flu.late := by decide +kernel

theorem test_hyp_FaultReports :
    (∀ x ∈ [(FaultKind.fanTrip, Severity.critical), (.lineOpen, .trouble), (.rxLoss, .note)],
      onLine.severity x.1 = x.2 ∧ onLine.flu.active = [])
      ∧ (let s := onLine.withFlu { onLine.flu with severities := put onLine.flu.severities FaultKind.fanTrip.index .masked }
         s.severity .fanTrip = .masked)
      ∧ (let s := onLine.withFlu { onLine.flu with active := fullTable }
         32 ≤ s.flu.active.length ∧ ∀ e ∈ s.flu.active, e.kind = .fanTrip → e.subject ≠ 6)
      ∧ (let s := onLine.onset .fanTrip 6 .none false
         (∃ e ∈ s.flu.active, e.kind = .fanTrip ∧ e.subject = 6) ∧ s.severity .fanTrip ≠ .masked
          ∧ s.flu.firstCritical ≠ none)
      ∧ (State.reset.isActive = false ∧ onLine.isActive = true ∧ onLine.bsc.queue.length < 8)
      ∧ (let s := withQueue (List.replicate 8 (entry (.claim 1 3))) none onLine
         (s.bsc.accept (.faultNotice 9 6 0xC1) s.cfl.ticks).2 = some (.faultNotice 9 6 0xC1)) := by
  refine ⟨by decide +kernel, by decide +kernel, by decide +kernel, ⟨⟨(⟨.fanTrip, 6, .critical, 100⟩ : FaultEntry), by decide +kernel, rfl, rfl⟩, by decide +kernel, by decide +kernel⟩, by decide +kernel, by decide +kernel⟩

theorem test_hyp_TraceEvents :
    ((idleView 10).phase = .idle ∧ (withFire .running onLine).age.view.phase ≠ .idle)
      ∧ (let s := (withFire .gathering onLine).withAge { (withFire .gathering onLine).age with candidates := [3, 4] }
         s.highest s.age.candidates = some 4)
      ∧ ((station .island).setZone 3 alarmEntry).homeAlarms.head? = some 3
      ∧ ((stepping true 2).row 1).completion = .opened
      ∧ (let s := (stepping true 2).completeRow 1 .forced; (s.row 1).completion ≠ .opened)
      ∧ (withDamper (damper .toOpen .opening .broken .made)).point 3 = .damper (damper .toOpen .opening .broken .made)
      ∧ (withFan (fan .run .starting)).point 6 = .fan (fan .run .starting)
      ∧ ((onLine.group 1).mode = .auto ∧ (onLine.group 1).stale = false ∧ (onLine.group 1).mode ≠ .on
          ∧ (onLine.group 1).owner = some 2) := by decide +kernel

theorem test_hyp_ViewPrecedence :
    ahead 1 65535 = true ∧ ((32768 : Epoch) - 0).toNat = 32768 ∧ ((0 : Epoch) - 32768).toNat = 32768
      ∧ 1 ≤ onLine.rank 3 ∧ (withFire .running onLine).age.view.phase ≠ .idle
      ∧ (withFire .running onLine).age.view.origin = some 3 := by decide +kernel

theorem test_hyp_DemandSourcesAndDrives :
    (withFan (fan .run .running)).isActive = true ∧ ((withFan (fan .run .running)).point 6).isUnused = false
      ∧ ((withFan (fan .run .running)).point 6).isFan = true
      ∧ ((withDamper (damper .toOpen .isOpen .made .broken)).point 3).isDamper = true
      ∧ (∀ m ∈ [GroupMode.auto, .on, .off],
          let s := ((withFan (fan .run .running)).withSts { onLine.sts with points := put onLine.sts.points 6 {
            onLine.sts.points[(6 : PointId)] with group := some 1 } }).setGroup 1 { onLine.group 1 with mode := m }
          (s.sts.points[(6 : PointId)]).group = some 1 ∧ (s.group 1).mode = m)
      ∧ State.reset.isActive = false ∧ (onLine.point 0).isUnused = true
      ∧ (∀ m ∈ [Mode.joiningAfterReset, .joiningAfterIsland],
          let s := (station m).setPoint 6 (.fan (fan .run .running))
          s.isActive = true ∧ (s.sts.points[(6 : PointId)]).group = none ∧ s.sts.viewSettled = false ∧ s.prm.mode = m)
      ∧ (let s := settling .opening
         s.sts.phase = .running ∧ ((s.sts.points[(3 : PointId)]).scenarios[s.sts.scenario]).action = .give .toOpen
          ∧ ((s.sts.points[(3 : PointId)]).scenarios[s.sts.scenario]).step ≤ s.sts.step ∧ s.prm.mode.joining = false)
      ∧ (let s := (settling .opening).withSts { (settling .opening).sts with
           phase := .gathering
           points := put (settling .opening).sts.points 3 { (settling .opening).sts.points[(3 : PointId)] with
             pre := .give .toShut } }
         s.sts.phase ≠ .running ∧ s.sts.phase ≠ .idle ∧ (s.sts.points[(3 : PointId)]).pre = .give .toShut)
      ∧ (∀ held ∈ [false, true],
          let s := (standingDown (fan .run .running)).withSts { (standingDown (fan .run .running)).sts with
            phase := .idle, standDownPending := held }
          s.sts.phase = .idle ∧ s.sts.standDownPending = held ∧ (s.point 3).isDamper = true
            ∧ (s.sts.points[(3 : PointId)]).normal = .give .toShut) := by decide +kernel

theorem test_hyp_FramesCarryBulletins : (0x84 : Byte).extractLsb' 1 2 ≠ 3 := by decide

theorem test_hyp_FramesCarryBulletins_damaged :
    ((0 : BitVec 4) = 0 ∨ 9 < (10 : BitVec 4).toNat) ∧ (assemble 2 (.claim 1 3)).kind = 1 ∧ goodFrame.kind = 3
      ∧ (assemble 2 (.view 1 0x06 255 0 0 7)).payload = (Bulletin.view 1 0x06 255 0 0 7).payload
      ∧ (0x06 : Byte).extractLsb' 1 2 = 3 ∧ (goodFrame.crc + 1 : BitVec 16) ≠ goodFrame.crc := by decide +kernel

/-- A busy station for the invariants: a fire runs, a fan is QUEUED and a bulletin is queued. -/
def busy : State :=
  let s := withFire .running ((withFan (fan .run .queued)).withPtc { (withFan (fan .run .queued)).ptc with startQueue := [6] })
  withQueue [entry .syncRequest] none (reported s)

theorem test_hyp_StepKeepsBusInOrder : BusInOrder busy ∧ ∃ t, step busy = .next t := by
  unfold BusInOrder; exact ⟨by decide +kernel, _, rfl⟩
theorem test_hyp_StepKeepsFaultsInOrder : FaultsInOrder busy ∧ ∃ t, step busy = .next t := by
  unfold FaultsInOrder; exact ⟨by decide +kernel, _, rfl⟩
theorem test_busy_points :
    (∀ p : PointId, p ≠ 6 → busy.point p = .unused (UnusedPoint.reset .broken .broken)) ∧ busy.point 6 = .fan (fan .run .queued) := by
  decide +kernel

theorem test_hyp_StepKeepsPointsInOrder : PointsInOrder busy ∧ ∃ t, step busy = .next t := by
  have h := test_busy_points
  refine ⟨⟨?_, ?_, by decide +kernel, ?_, ?_, by decide +kernel⟩, _, rfl⟩
  · intro p d hp
    by_cases e : p = 6 <;> simp_all
  · intro p f hp
    by_cases e : p = 6
    · subst e
      rw [h.2] at hp
      cases hp
      exact ⟨rfl, by decide +kernel, by decide⟩
    · rw [h.1 p e] at hp
      cases hp
  · intro p
    by_cases e : p = 6
    · subst e
      exact ⟨fun _ => ⟨_, h.2, rfl⟩, fun _ => by decide +kernel⟩
    · have q : busy.ptc.startQueue = [6] := by decide +kernel
      simp [q, e, h.1 p e]
  · intro p q f g hp hq
    by_cases e : p = 6 <;> by_cases e' : q = 6 <;> simp_all

theorem test_hyp_StepKeepsPointsInOrder_reports : ReportsInOrder busy := by unfold ReportsInOrder; decide +kernel

/-- A busy station whose fire runs at its first step, with a subsequent zone. -/
def fireRuns : State :=
  busy.withAge { busy.age with view := { busy.age.view with step := 1 }, subsequent := [4] }

/-- A busy station whose claims gather. -/
def claimsGather : State :=
  busy.withAge { busy.age with view := gatheringView 10 4, candidates := [3, 4], window := some 300 }

theorem test_hyp_StepKeepsAgreementInOrder : AgreementInOrder fireRuns ∧ ∃ t, step fireRuns = .next t := by
  constructor
  · unfold AgreementInOrder SetupInRange
    and_intros <;> decide +kernel
  · exact ⟨_, rfl⟩

theorem test_hyp_StepKeepsAgreementInOrder_gathering : AgreementInOrder claimsGather ∧ ∃ t, step claimsGather = .next t := by
  constructor
  · unfold AgreementInOrder SetupInRange
    and_intros <;> decide +kernel
  · exact ⟨_, rfl⟩

theorem test_hyp_StepKeepsZonesInOrder : (ZonesInOrder busy ∧ InactiveIsBare busy) ∧ ∃ t, step busy = .next t := by
  unfold ZonesInOrder InactiveIsBare; exact ⟨by decide +kernel, _, rfl⟩

end Sys2Proof.Tests
end

/-! The statements of chapter 2 about the detection lines: what a settled change of a line leaves, what each event makes of the
line's record, how the commands of a line run, and the condition of a zone read off its lines. -/

namespace Sys2Proof.Machine

/-! ## What follows a line's change leaves the line -/

/-- The agreement leaves every detection line as it stands. -/
theorem Moves.line_of_agree {s t : State} (c : Moves mayAgree s t) (l : LineId) : t.line l = s.line l := by
  obtain ⟨hlines, -, -⟩ := (c.within mayAgree_chains).liu
  exact congrArg (fun v => v[l]) hlines

/-- The agreement leaves the station mode. -/
theorem Moves.isActive_of_agree {s t : State} (c : Moves mayAgree s t) : t.isActive = s.isActive := by
  obtain ⟨hprm, -⟩ := (c.within mayAgree_chains).prm
  exact congrArg (fun p => p.mode.active) hprm

/-- Once a line's record is written, its reports, its zone's condition and the AGE's notices are moves of the agreement. -/
theorem settleLine_moves (s : State) (l : LineId) (c : LineChange) :
    Moves mayAgree (s.setLine l c.record) (State.withNotices (s.settleLine l c)) := by
  refine .trans ?_ (takeNotices_moves _ _)
  have reports := handTogether_moves (m := mayAgree) (s.setLine l c.record)
    (changeReports (byteOf l.val) (.line c.record.state) c.clears c.onsets) false
  unfold State.settleLine
  dsimp only
  split
  · split
    · exact reports
    · exact reports.trans (rederive_moves _ _)
  · exact reports

/-- A settled line holds the record of its change. -/
theorem settleLine_line_self (s : State) (l : LineId) (c : LineChange) :
    (State.withNotices (s.settleLine l c)).line l = c.record := by
  rw [(settleLine_moves s l c).line_of_agree, setLine_line_self]

/-- A line's change leaves the station mode. -/
theorem settleLine_isActive (s : State) (l : LineId) (c : LineChange) :
    (State.withNotices (s.settleLine l c)).isActive = s.isActive :=
  (settleLine_moves s l c).isActive_of_agree

/-! ## What an event makes of a line's record -/

/-- A candidate with a confirm time confirms, under a chatter window that is started only where none runs (R20, R22). -/
theorem candidate_of_confirm_ne_zero (r : LineRecord) (h : r.cfg.confirm ≠ 0) :
    r.candidate = { r with state := .confirming, timer := some (10 * r.cfg.confirm), window := some (r.window.getD 1000) } := by
  cases hw : r.window <;> simp [LineRecord.candidate, h, hw, startTenths, chatterTime, startSeconds]

/-- NORMAL goes to CONFIRMING at a reading of ACTIVE, where the line has a confirm time (R20). -/
theorem takeReading_active_of_normal (r : LineRecord) (h : r.state = .normal) (confirm : r.cfg.confirm ≠ 0) :
    (r.takeReading .active).record =
      { r with reading := .active, state := .confirming, timer := some (10 * r.cfg.confirm),
               window := some (r.window.getD 1000) } := by
  have candidate := candidate_of_confirm_ne_zero { r with reading := .active } confirm
  simpa [LineRecord.takeReading, LineRecord.takeActive, h] using candidate

/-- ACTIVE goes to CLEARING at a reading of NORMAL (R24). -/
theorem takeReading_normal_of_active (r : LineRecord) (h : r.state = .active) :
    (r.takeReading .normal).record =
      { r with reading := .normal, state := .clearing, timer := some (10 * r.cfg.clear) } := by
  simp [LineRecord.takeReading, LineRecord.takeNormal, h, startTenths]

/-- CLEARING goes back to ACTIVE at a reading of ACTIVE, and the timer stops (R24). -/
theorem takeReading_active_of_clearing (r : LineRecord) (h : r.state = .clearing) :
    (r.takeReading .active).record = { r with reading := .active, state := .active, timer := none } := by
  simp [LineRecord.takeReading, LineRecord.takeActive, h]

/-- CONFIRMING counts a toggle at a reading of NORMAL below the limit (R21). -/
theorem takeReading_normal_below_limit (r : LineRecord) (h : r.state = .confirming)
    (hlim : r.toggles + 1 < r.cfg.chatterLimit) :
    (r.takeReading .normal).record =
      { r with reading := .normal, state := .normal, timer := none, toggles := r.toggles + 1 } := by
  simp [LineRecord.takeReading, LineRecord.takeNormal, LineRecord.toggle, h, Nat.not_le.2 hlim]

/-- CONFIRMING goes to CHATTER at the toggle that reaches the limit (R21, R23). -/
theorem takeReading_normal_at_limit (r : LineRecord) (h : r.state = .confirming)
    (hlim : r.cfg.chatterLimit ≤ r.toggles + 1) :
    (r.takeReading .normal).record =
      { r with reading := .normal, state := .chatter, timer := some (10 * r.cfg.clear), window := none, toggles := 0 } := by
  simp [LineRecord.takeReading, LineRecord.takeNormal, LineRecord.toggle, LineRecord.quietEntry, h, hlim, startTenths]

/-- A reading of OPEN-CIRCUIT leads into its fault state from every state but ISOLATED (R25). -/
theorem takeReading_openCircuit (r : LineRecord) (h : r.state ≠ .isolated) :
    (r.takeReading .openCircuit).record = LineRecord.quietEntry { r with reading := .openCircuit } .openFault := by
  simp [LineRecord.takeReading, LineRecord.takeFault, h]

/-- A reading of SHORT-CIRCUIT leads into its fault state from every state but ISOLATED (R25). -/
theorem takeReading_shortCircuit (r : LineRecord) (h : r.state ≠ .isolated) :
    (r.takeReading .shortCircuit).record = LineRecord.quietEntry { r with reading := .shortCircuit } .shortFault := by
  simp [LineRecord.takeReading, LineRecord.takeFault, h]

/-- CLEARING goes to NORMAL at the expiry (R24). -/
theorem timerExpiry_of_clearing (r : LineRecord) (h : r.state = .clearing) :
    r.timerExpiry.record = { r with state := .normal, timer := none } := by
  simp [LineRecord.timerExpiry, h]

/-- The expiry of the chatter window stops it and sets the count to 0 (R22). -/
theorem windowExpiry_eq (r : LineRecord) : r.windowExpiry = { r with window := none, toggles := 0 } := rfl

/-- Isolation enters ISOLATED with window and count gone (R22, R26). -/
theorem isolate_of_not_isolated (r : LineRecord) (h : r.state ≠ .isolated) :
    r.isolate.record = r.quietEntry .isolated := by
  simp [LineRecord.isolate, h]

/-! ## How the commands of a line run -/

/-- A reading event at a started station takes the band, and the AGE the notices. -/
theorem exec_readingEvent_of_active (s : State) (l : LineId) (band : Band) (active : s.isActive = true) :
    exec (.readingEvent l band) s = .next (State.withNotices (s.takeBand l band)) := by
  have arm : exec (.readingEvent l band) s = execReadingEvent l band s := rfl
  rw [arm, execReadingEvent, if_pos active]

/-- The expiry of a line timer acts at a started station where the timer is due. -/
theorem exec_lineTimerExpiry (s : State) (l : LineId) :
    exec (.lineTimerExpiry l) s = .next (if s.isActive && timerDue (s.line l).timer then
      State.withNotices (s.settleLine l (s.line l).timerExpiry) else s) := rfl

/-- The expiry of a chatter window acts at a started station where the window is due. -/
theorem exec_chatterWindowExpiry (s : State) (l : LineId) :
    exec (.chatterWindowExpiry l) s = .next (if s.isActive && timerDue (s.line l).window then
      s.setLine l (s.line l).windowExpiry else s) := rfl

/-- ISOLATE writes the outcome of the isolation. -/
theorem exec_isolate (s : State) (argument : BitVec 16) :
    exec (.isolate argument) s = .next (State.report (s.isolate argument) 6) := rfl

/-- A reading event of an assigned line with a new reading gives the line the record of that reading (R18). -/
theorem readingEvent_completes {s : State} {l : LineId} {band : Band} {reading : Reading} (active : s.isActive = true)
    (assigned : (s.line l).cfg.zone ≠ none) (reads : readingOf (s.line l).cfg.normallyClosed band = reading)
    (new : (s.line l).reading ≠ reading) :
    ∃ t : State, exec (.readingEvent l band) s = .next t ∧ t.line l = ((s.line l).takeReading reading).record
      ∧ t.isActive = true := by
  have takes : s.takeBand l band = s.settleLine l ((s.line l).takeReading reading) := by
    simp [State.takeBand, reads, Option.isSome_iff_ne_none, assigned, new.symm]
  refine ⟨_, exec_readingEvent_of_active s l band active, ?_⟩
  rw [takes]
  exact ⟨settleLine_line_self _ _ _, (settleLine_isActive _ _ _).trans active⟩

/-- The expiry of a line timer that is due gives the line the record of the expiry (R21, R23, R24). -/
theorem lineTimerExpiry_completes {s : State} {l : LineId} (active : s.isActive = true) (due : (s.line l).timer = some 0) :
    ∃ t : State, exec (.lineTimerExpiry l) s = .next t ∧ t.line l = (s.line l).timerExpiry.record ∧ t.isActive = true := by
  refine ⟨_, exec_lineTimerExpiry s l, ?_⟩
  rw [if_pos (by simp [active, due, timerDue])]
  exact ⟨settleLine_line_self _ _ _, (settleLine_isActive _ _ _).trans active⟩

/-- The expiry of a line timer that is stopped changes nothing. -/
theorem lineTimerExpiry_of_stopped {s : State} {l : LineId} (stopped : (s.line l).timer = none) :
    exec (.lineTimerExpiry l) s = .next s := by
  rw [exec_lineTimerExpiry, if_neg (by simp [stopped, timerDue])]

/-- The expiry of a chatter window that is due stops it and sets the count to 0, and changes nothing else (R22). -/
theorem chatterWindowExpiry_completes {s : State} {l : LineId} (active : s.isActive = true)
    (due : (s.line l).window = some 0) :
    exec (.chatterWindowExpiry l) s = .next (s.setLine l (s.line l).windowExpiry) := by
  rw [exec_chatterWindowExpiry, if_pos (by simp [active, due, timerDue])]

/-- ISOLATE of an assigned line is accepted in ON-LINE and ISLAND while IDLE, and gives the line its record isolated (R26). -/
theorem isolate_completes {s : State} {l : LineId} (assigned : (s.line l).cfg.zone ≠ none)
    (joined : s.prm.mode.joined = true) (idle : s.age.view.phase = .idle) :
    ∃ t : State, exec (.isolate (BitVec.ofNat 16 l.val)) s = .next t ∧ t.line l = (s.line l).isolate.record := by
  have named : index 8 (BitVec.ofNat 16 l.val).toNat = some l := by
    have small : (BitVec.ofNat 16 l.val).toNat = l.val := Nat.mod_eq_of_lt (by omega)
    simp only [index, small, l.isLt, dif_pos]
  have accepted : s.lineCommand (BitVec.ofNat 16 l.val) = .ok l := by
    rw [State.lineCommand, named]
    simp [joined, idle, Option.isSome_iff_ne_none, assigned]
  refine ⟨_, exec_isolate s _, ?_⟩
  rw [State.isolate, accepted]
  exact settleLine_line_self _ _ _

/-! ## The condition of a zone -/

/-- The lines of a zone are those assigned to it. -/
theorem mem_linesOf (s : State) (z : ZoneId) (l : LineId) : l ∈ s.linesOf z ↔ (s.line l).cfg.zone = some z := by
  simp [State.linesOf]

/-- The condition of a zone, with its lines named by their assignment (R28). -/
theorem deriveCondition_eq (s : State) (z : ZoneId) :
    s.deriveCondition z =
      if ∃ l, (s.line l).cfg.zone = some z ∧ (((s.line l).state.inActive = true ∧ s.inTest l = false)
          ∨ ((s.line l).state = .chatter ∧ (s.line l).cfg.chatterAlarm = true)) then .alarm
      else if ∃ l, (s.line l).cfg.zone = some z ∧ ((s.line l).state.inFault = true
          ∨ ((s.line l).state = .chatter ∧ (s.line l).cfg.chatterAlarm = false)) then .fault
      else if ∃ l, (s.line l).cfg.zone = some z ∧ (s.line l).state.inActive = true ∧ s.inTest l = true then .test
      else if (∃ l, (s.line l).cfg.zone = some z) ∧ ∀ l, (s.line l).cfg.zone = some z → (s.line l).state = .isolated then
        .isolated
      else .quiet := by
  have nonempty : s.linesOf z ≠ [] ↔ ∃ l, (s.line l).cfg.zone = some z := by
    constructor
    · intro h
      obtain ⟨l, hl⟩ := List.exists_mem_of_ne_nil _ h
      exact ⟨l, (mem_linesOf s z l).1 hl⟩
    · rintro ⟨l, hl⟩
      exact List.ne_nil_of_mem ((mem_linesOf s z l).2 hl)
  simp [State.deriveCondition, mem_linesOf, nonempty]

/-! ## The statements -/

/-- Settles O11, by the first of the tests that applies. -/
theorem zoneConditionFromLines : Obligations.ZoneConditionFromLines := by
  unfold Obligations.ZoneConditionFromLines
  intro z s inZone alarm fault test isolated lined
  rw [deriveCondition_eq]
  refine ⟨fun a => if_pos a, fun a f => ?_, fun a f t => ?_, fun a f t i => ?_, fun a f t i => ?_⟩
  · rw [if_neg a, if_pos f]
  · rw [if_neg a, if_neg f, if_pos t]
  · rw [if_neg a, if_neg f, if_neg t, if_pos ⟨lined, i⟩]
  · rw [if_neg a, if_neg f, if_neg t, if_neg fun h => i h.2]

/-- Settles O9: each way of a line through CLEARING is one event of the line, and the order of the reading and the expiry is
the second event run on the state that the first leaves. -/
theorem clearingLineReturns : Obligations.ClearingLineReturns := by
  unfold Obligations.ClearingLineReturns
  intro l s active assigned
  refine ⟨fun band state new reads => ?_, fun band state new reads => ?_, fun state due => ?_,
    fun z zone state untested => ?_⟩
  · obtain ⟨t, runs, line, -⟩ := readingEvent_completes active assigned reads new
    rw [takeReading_normal_of_active _ state] at line
    exact ⟨t, runs, by simp [line]⟩
  · obtain ⟨t, runs, line, -⟩ := readingEvent_completes active assigned reads new
    rw [takeReading_active_of_clearing _ state] at line
    have stopped : (t.line l).timer = none := by simp [line]
    exact ⟨t, runs, by simp [line], stopped, by simp [line], lineTimerExpiry_of_stopped stopped⟩
  · obtain ⟨t, runs, line, activeAfter⟩ := lineTimerExpiry_completes active due
    rw [timerExpiry_of_clearing _ state] at line
    refine ⟨t, runs, by simp [line], by simp [line], by simp [line], fun band new reads confirm => ?_⟩
    obtain ⟨u, runsAgain, candidate, -⟩ := readingEvent_completes (s := t) (l := l) (band := band) (reading := .active)
      activeAfter (by simpa [line] using assigned) (by simpa [line] using reads) (by simpa [line] using new)
    rw [takeReading_active_of_normal _ (by simp [line]) (by simpa [line] using confirm)] at candidate
    exact ⟨u, runsAgain, by simp [candidate], by simp [candidate, line], by simp [candidate, line]⟩
  · rw [deriveCondition_eq]
    exact if_pos ⟨l, zone, .inl ⟨by simp [state, LineState.inActive], untested⟩⟩

/-- Settles O10: each clause is one event of the line, and the two orders of the expiry and a toggle are the second event run on
the state that the first leaves. -/
theorem chatterWindowCounts : Obligations.ChatterWindowCounts := by
  unfold Obligations.ChatterWindowCounts
  intro l s active assigned
  refine ⟨fun band state new confirm reads => ?_, fun due => ?_, fun band state new reads => ?_,
    fun band state new faulty => ?_, fun state joined idle => ?_⟩
  · obtain ⟨t, runs, line, -⟩ := readingEvent_completes active assigned reads new
    rw [takeReading_active_of_normal _ state confirm] at line
    exact ⟨t, runs, by simp [line]⟩
  · refine ⟨_, chatterWindowExpiry_completes active due, rfl, fun band state new limit reads => ?_⟩
    obtain ⟨u, runs, toggled, -⟩ := readingEvent_completes (s := s.setLine l (s.line l).windowExpiry) (l := l) (band := band)
      (reading := .normal) active (by simpa [windowExpiry_eq] using assigned)
      (by simpa [windowExpiry_eq] using reads) (by simpa [windowExpiry_eq] using new)
    rw [setLine_line_self, takeReading_normal_below_limit (s.line l).windowExpiry state limit] at toggled
    exact ⟨u, runs, by simp [toggled, windowExpiry_eq]⟩
  · obtain ⟨t, runs, line, activeAfter⟩ := readingEvent_completes active assigned reads new
    refine ⟨t, runs, fun limit => ?_, fun limit => ?_⟩
    · rw [takeReading_normal_at_limit _ state limit] at line
      simp [line]
    · rw [takeReading_normal_below_limit _ state limit] at line
      refine ⟨by simp [line], fun due => ⟨_, chatterWindowExpiry_completes activeAfter (by simpa [line] using due), ?_⟩⟩
      simp [line, windowExpiry_eq]
  · have enters : ∃ fault, ((s.line l).takeReading (readingOf (s.line l).cfg.normallyClosed band)).record =
        LineRecord.quietEntry { s.line l with reading := readingOf (s.line l).cfg.normallyClosed band } fault := by
      rcases faulty with rfl | rfl
      · exact ⟨_, takeReading_openCircuit _ state⟩
      · exact ⟨_, takeReading_shortCircuit _ state⟩
    obtain ⟨t, runs, line, -⟩ := readingEvent_completes active assigned rfl new
    obtain ⟨fault, enters⟩ := enters
    rw [enters] at line
    exact ⟨t, runs, by simp [line, LineRecord.quietEntry]⟩
  · obtain ⟨t, runs, line⟩ := isolate_completes assigned joined idle
    rw [isolate_of_not_isolated _ state] at line
    exact ⟨t, runs, by simp [line, LineRecord.quietEntry]⟩

end Sys2Proof.Machine

/-! The precedence of two views (R41), chapter 3: the order of epochs, one equation for each test of precedence, and the order that
the tests make together. -/

namespace Sys2Proof.Machine

/-! ## The order of epochs -/

/-- An epoch is ahead of another by a distance from 1 to 32767. -/
theorem ahead_iff (a b : Epoch) : ahead a b = true ↔ 1 ≤ (a - b).toNat ∧ (a - b).toNat ≤ 32767 := by
  simp [ahead]

/-- The two distances between different epochs make up the whole circle of epochs. -/
theorem epoch_distances_add {a b : Epoch} (h : a ≠ b) : (a - b).toNat + (b - a).toNat = 65536 := by
  bv_omega

/-- An epoch ahead of another is a different one. -/
theorem epoch_ne_of_ahead {a b : Epoch} (h : ahead a b = true) : a ≠ b := by
  rintro rfl
  simp [ahead_iff] at h

/-- Epochs at half the circle from each other are different. -/
theorem epoch_ne_of_opposite {a b : Epoch} (h : (a - b).toNat = 32768) : a ≠ b := by
  rintro rfl
  simp at h

/-- The greater of two epochs is the one ahead, or at half the circle the larger number. -/
theorem epochGreater_iff (a b : Epoch) :
    epochGreater a b = true ↔ ahead a b = true ∨ ((a - b).toNat = 32768 ∧ b.toNat < a.toNat) := by
  rw [epochGreater, Bool.or_eq_true, Bool.and_eq_true, beq_iff_eq, decide_eq_true_iff]

/-- Of two epochs at half the circle from each other, the larger number is the greater. -/
theorem epochGreater_of_opposite {a b : Epoch} (h : (a - b).toNat = 32768) :
    epochGreater a b = decide (b.toNat < a.toNat) := by
  have notAhead : ahead a b = false := by simp [ahead, h]
  rw [Bool.eq_iff_iff, epochGreater_iff, decide_eq_true_iff, notAhead]
  simp [h]

/-- Of two different epochs at most one is the greater: with the one ahead the other distance is above half the circle, and at
half the circle the numbers decide. -/
theorem epochGreater_asymm {a b : Epoch} (h : a ≠ b) (greater : epochGreater a b = true) : epochGreater b a = false := by
  have circle := epoch_distances_add h
  rw [Bool.eq_false_iff, ne_eq, epochGreater_iff, ahead_iff]
  rcases (epochGreater_iff a b).1 greater with isAhead | ⟨opposite, larger⟩
  · obtain ⟨-, below⟩ := (ahead_iff a b).1 isAhead
    omega
  · omega

/-! ## The tests of precedence -/

section Tests

variable {a b : View} (s : State)

/-- Test 1: the epochs differ. -/
theorem greater_of_epoch_ne (epoch : a.epoch ≠ b.epoch) : s.greater a b = epochGreater a.epoch b.epoch := by
  simp [State.greater, epoch]

/-- Test 2: an IDLE view is greater than just the views of its epoch in a fire phase. -/
theorem greater_of_idle (epoch : a.epoch = b.epoch) (idle : a.phase = .idle) : s.greater a b = (b.phase != .idle) := by
  simp [State.greater, epoch, idle]

/-- Test 2: no view is greater than an IDLE view of its epoch. -/
theorem not_greater_than_idle (epoch : a.epoch = b.epoch) (idle : b.phase = .idle) : s.greater a b = false := by
  simp [State.greater, epoch, idle]

/-- Test 3: the escalated flags differ. -/
theorem greater_of_escalated_ne (epoch : a.epoch = b.epoch) (ha : a.phase ≠ .idle) (hb : b.phase ≠ .idle)
    (escalated : a.escalated ≠ b.escalated) : s.greater a b = a.escalated := by
  simp [State.greater, epoch, ha, hb, escalated]

/-- Test 4: one view is RUNNING and the other GATHERING. -/
theorem greater_of_phase_ne (epoch : a.epoch = b.epoch) (ha : a.phase ≠ .idle) (hb : b.phase ≠ .idle)
    (escalated : a.escalated = b.escalated) (phase : a.phase ≠ b.phase) : s.greater a b = (a.phase == .running) := by
  simp [State.greater, epoch, ha, hb, escalated, phase]

/-- Test 5: the ranks of the origins decide. -/
theorem greater_by_rank (epoch : a.epoch = b.epoch) (ha : a.phase ≠ .idle) (escalated : a.escalated = b.escalated)
    (phase : a.phase = b.phase) : s.greater a b = decide (s.originRank b.origin < s.originRank a.origin) := by
  have hb : b.phase ≠ .idle := phase ▸ ha
  simp [State.greater, epoch, escalated, phase, hb]

/-- No test compares scenario, step or established flag. -/
theorem greater_blind (scenario : ScenarioId) (step : StepId) (established : Bool) :
    s.greater { a with scenario := scenario, step := step, established := established } b = s.greater a b
      ∧ s.greater b { a with scenario := scenario, step := step, established := established } = s.greater b a :=
  ⟨rfl, rfl⟩

/-! ## The order that the tests make -/

/-- Of two different phases at most one is RUNNING. -/
theorem not_running_of_running {p q : Phase} (phase : p ≠ q) (running : (p == .running) = true) :
    (q == .running) = false := by
  rw [beq_iff_eq] at running
  rw [beq_eq_false_iff_ne]
  exact fun other => phase (running.trans other.symm)

/-- Of two views at most one is the greater: the first test that tells them apart is the same read either way. -/
theorem greater_asymm (greater : s.greater a b = true) : s.greater b a = false := by
  by_cases epoch : a.epoch = b.epoch
  case neg =>
    rw [greater_of_epoch_ne s epoch] at greater
    rw [greater_of_epoch_ne s (Ne.symm epoch)]
    exact epochGreater_asymm epoch greater
  by_cases ha : a.phase = .idle
  · exact not_greater_than_idle s epoch.symm ha
  by_cases hb : b.phase = .idle
  · simp [not_greater_than_idle s epoch hb] at greater
  by_cases escalated : a.escalated = b.escalated
  case neg =>
    rw [greater_of_escalated_ne s epoch ha hb escalated] at greater
    rw [greater_of_escalated_ne s epoch.symm hb ha (Ne.symm escalated)]
    simpa [greater] using Ne.symm escalated
  by_cases phase : a.phase = b.phase
  case neg =>
    rw [greater_of_phase_ne s epoch ha hb escalated phase] at greater
    rw [greater_of_phase_ne s epoch.symm hb ha escalated.symm (Ne.symm phase)]
    exact not_running_of_running phase greater
  rw [greater_by_rank s epoch ha escalated phase, decide_eq_true_iff] at greater
  rw [greater_by_rank s epoch.symm hb escalated.symm phase.symm]
  exact decide_eq_false (Nat.lt_asymm greater)

/-- A view greater than another comes with the other direction refused. -/
theorem greater_strict (greater : s.greater a b = true) : s.greater a b = true ∧ s.greater b a = false :=
  ⟨greater, greater_asymm s greater⟩

/-- Two views are equal under precedence where neither is greater. -/
theorem equalRank_iff : s.equalRank a b = true ↔ s.greater a b = false ∧ s.greater b a = false := by
  simp [State.equalRank]

end Tests

/-! ## The statement -/

/-- Settles O52: each clause is the test of precedence that decides it, and one direction gives the other by asymmetry. -/
theorem viewPrecedence : Obligations.ViewPrecedence := by
  unfold Obligations.ViewPrecedence
  intro s a b
  refine ⟨fun isAhead => ?_, fun opposite => ?_, fun epoch idle fire => ?_, fun epoch ha hb flag unflagged => ?_,
    fun epoch escalated running gathering => ?_, fun epoch escalated phase fire => ?_, fun epoch ha hb => ?_,
    greater_asymm s, equalRank_iff s, greater_blind s⟩
  · apply greater_strict
    rw [greater_of_epoch_ne s (epoch_ne_of_ahead isAhead), epochGreater_iff]
    exact .inl isAhead
  · rw [greater_of_epoch_ne s (epoch_ne_of_opposite opposite), epochGreater_of_opposite opposite]
  · apply greater_strict
    rw [greater_of_idle s epoch idle, bne_iff_ne]
    exact fire
  · apply greater_strict
    rw [greater_of_escalated_ne s epoch ha hb (by simp [flag, unflagged]), flag]
  · apply greater_strict
    rw [greater_of_phase_ne s epoch (by simp [running]) (by simp [gathering]) escalated (by simp [running, gathering]),
      running, beq_self_eq_true]
  · have byRank := greater_by_rank s epoch fire escalated phase
    refine ⟨fun y z ha hb => ?_, fun y ha hb ranked => greater_strict s ?_, fun origin => ?_⟩
    · rw [byRank, ha, hb, State.originRank, State.originRank]
    · rw [byRank, ha, hb, decide_eq_true_iff]
      exact ranked
    · simp [byRank, origin]
  · rw [greater_of_idle s epoch ha, hb, bne_self_eq_false]

end Sys2Proof.Machine

/-! CLEAR_LOG (R183), chapter 10: what it leaves in the FLU, and what the next onset of a severity does to its empty first
record. -/

namespace Sys2Proof.Machine

/-! ## The output lines without the latch -/

/-- The serious severities, by name (R181). -/
theorem Severity.serious_eq (v : Severity) : v.serious = (v == .trouble || v == .critical) := by
  cases v <;> rfl

/-- With the latch clear, TROUBLE follows the table alone (R181). -/
theorem troubleLevel_of_unlatched (active : List FaultEntry) :
    troubleLevel active false = active.any fun e => e.severity == .trouble || e.severity == .critical := by
  simp [troubleLevel, Severity.serious_eq]

/-! ## An onset fills an empty first record -/

/-- An entry made leaves both first records. -/
@[simp] theorem Flu.enter_firstRecords (f : Flu) (e : FaultEntry) (momentary : Bool) :
    (f.enter e momentary).firstCritical = f.firstCritical ∧ (f.enter e momentary).firstTrouble = f.firstTrouble := by
  unfold Flu.enter
  split
  · exact ⟨rfl, rfl⟩
  · split <;> exact ⟨rfl, rfl⟩

/-- A CRITICAL onset fills the first CRITICAL record where it is not valid (R179). -/
theorem Flu.remember_critical_of_empty (f : Flu) (r : FirstRecord) (empty : f.firstCritical = none) :
    f.remember .critical r = { f with firstCritical := some r } := by
  simp [Flu.remember, empty]

/-- A TROUBLE onset fills the first TROUBLE record where it is not valid (R179). -/
theorem Flu.remember_trouble_of_empty (f : Flu) (r : FirstRecord) (empty : f.firstTrouble = none) :
    f.remember .trouble r = { f with firstTrouble := some r } := by
  simp [Flu.remember, empty]

/-- An onset that is taken makes its entry, is remembered under its severity, drives the lines and writes one trace entry. -/
theorem recordOnset_of_taken (s : State) (k : FaultKind) (j : Byte) (d : Detail) (b : Bool)
    (taken : s.onsetTaken k j b = true) :
    s.recordOnset k j d b =
      (s.withFlu ((s.flu.enter { kind := k, subject := j, severity := s.severity k, onset := s.now } b).remember
        (s.severity k) (s.firstRecord k j d)).drive).trace .faultOnset j (byteOf k.code) (s.severity k).code := by
  rw [State.recordOnset, if_pos taken]

/-- Neither the lines driven nor the trace entry changes a first record. -/
theorem trace_drive_firstRecords (s : State) (f : Flu) (kind : TraceKind) (j v w : Byte) :
    ((s.withFlu f.drive).trace kind j v w).flu.firstCritical = f.firstCritical
      ∧ ((s.withFlu f.drive).trace kind j v w).flu.firstTrouble = f.firstTrouble := ⟨rfl, rfl⟩

/-- The first CRITICAL onset taken while the first CRITICAL record is not valid fills it (R179). -/
theorem recordOnset_fills_firstCritical (s : State) (k : FaultKind) (j : Byte) (d : Detail) (b : Bool)
    (empty : s.flu.firstCritical = none) (taken : s.onsetTaken k j b = true) (critical : s.severity k = .critical) :
    (s.recordOnset k j d b).flu.firstCritical = some (s.firstRecord k j d) := by
  rw [recordOnset_of_taken s k j d b taken, (trace_drive_firstRecords _ _ _ _ _ _).1, critical,
    Flu.remember_critical_of_empty _ _ (by simpa using empty)]

/-- The first TROUBLE onset taken while the first TROUBLE record is not valid fills it (R179). -/
theorem recordOnset_fills_firstTrouble (s : State) (k : FaultKind) (j : Byte) (d : Detail) (b : Bool)
    (empty : s.flu.firstTrouble = none) (taken : s.onsetTaken k j b = true) (trouble : s.severity k = .trouble) :
    (s.recordOnset k j d b).flu.firstTrouble = some (s.firstRecord k j d) := by
  rw [recordOnset_of_taken s k j d b taken, (trace_drive_firstRecords _ _ _ _ _ _).2, trouble,
    Flu.remember_trouble_of_empty _ _ (by simpa using empty)]

/-! ## The command -/

/-- The FLU after CLEAR-LOG: records, sets, latch and full flag empty, the lines as the table alone gives them (R181, R183). -/
theorem Flu.clearLog_eq (f : Flu) :
    f.clearLog = { f with
      firstCritical := none, firstTrouble := none, nextCritical := 0, nextTrouble := 0, noteSeen := 0, latch := false,
      tableFull := false,
      troubleLine := f.active.any (fun e => e.severity == .trouble || e.severity == .critical),
      criticalLine := f.active.any (fun e => e.severity == .critical) } := by
  rw [← troubleLevel_of_unlatched]
  rfl

/-- A command whose code fits four bits shows that code and its outcome (R194). -/
theorem report_of_code_lt (r : State × CommandOutcome) (code : Byte) (fits : code.toNat < 16) :
    State.report r code = r.1.withMnp { r.1.mnp with
      command := 0, result := (code.setWidth 4 ++ (0 : BitVec 4)) ||| r.2.code, drawn := r.1.mnp.drawn + 1 } := by
  rw [State.report, resultNibble, if_pos fits]

/-- CLEAR_LOG completes in every mode, and changes the FLU and the result alone (R183, R194). -/
theorem exec_clearLog (s : State) :
    exec .clearLog s = .next
      ((s.withFlu s.flu.clearLog).withMnp { s.mnp with command := 0, result := 0x11, drawn := s.mnp.drawn + 1 }) := by
  have arm : exec .clearLog s = .next (State.report s.clearLog 1) := rfl
  have shown : ((1 : Byte).setWidth 4 ++ (0 : BitVec 4)) ||| CommandOutcome.accepted.code = 0x11 := by decide
  rw [arm, report_of_code_lt _ _ (by decide), ← shown]
  rfl

/-- Settles O15: CLEAR-LOG leaves both first records empty, so the next onset of each severity fills its own. -/
theorem clearLogEmptiesRecords : Obligations.ClearLogEmptiesRecords := by
  intro s
  have cleared := Flu.clearLog_eq s.flu
  refine ⟨_, exec_clearLog s, ?result, ?frame, ?flu, ?critical, ?trouble⟩
  case result => rfl
  case frame => rfl
  case flu => exact cleared
  case critical =>
    exact fun k j d b => recordOnset_fills_firstCritical _ k j d b (congrArg Flu.firstCritical cleared)
  case trouble =>
    exact fun k j d b => recordOnset_fills_firstTrouble _ k j d b (congrArg Flu.firstTrouble cleared)

end Sys2Proof.Machine
